-- ==== Sys2Proof/Word.lean ====
section
/-! DEFINITION. The words of the machine (spec/00_scope.md R10, spec/10_state.md R20, R30). -/

namespace Sys2Proof

/-- One byte, 8 bits (R10). -/
abbrev Byte := BitVec 8

/-- A long word (L, D), 64 bits: the width of R0 to R31, SRi, the CSRs and pc (R20, R24, R26). -/
abbrev Word := BitVec 64

/-- A vector, 256 bits: the width of V0 to V31 (R30). -/
abbrev Vec := BitVec 256

/-- The number of a register R0 to R31, F0 to F31 or V0 to V31: a 5-bit field (R352). -/
abbrev Reg := BitVec 5

/-- One instruction, 32 bits (spec/30_encoding.md R350). -/
abbrev InsnWord := BitVec 32

/-- A physical address, 48 bits (spec/20_memory.md R211). -/
abbrev PAddr := BitVec 48

end Sys2Proof
end

