-- ==== Sys2Proof/Config.lean ====
section
/-! DEFINITION. What the spec leaves open and no step can fix: constants without a body. Nothing in Lean can
evaluate them, so a statement that holds holds whatever they are (log 9). -/

namespace Sys2Proof

/-- The n-th free value: each UNPREDICTABLE or unstated value of the spec is the next one of this sequence
(spec/10_state.md R38; log 9). A narrower value is its low bits. -/
opaque Config.freeBits : Nat → BitVec 256

/-- How many core clock cycles the n-th counted span takes: the spec gives no latencies
(spec/70_reset_and_hazards.md R762; log 8). -/
opaque Config.cycles : Nat → Nat

/-- A target is close to the PRI_WCSR that set IDA_MATCH or IDA_MASK, given by the address right after it: the spec gives
no distance (spec/70_reset_and_hazards.md R750; log 58). -/
opaque Config.idaClose : (writer target : Word) → Bool

/-- The substitute instruction enters at PRI_BASE + 0x5D80, which spec/22_errors.md R335 writes, and not at the entry that
spec/40_privileged.md R383 computes (log 43). -/
opaque Config.substituteAsWritten : Bool

end Sys2Proof
end

