-- ==== Sys2Proof/Syntax.lean ====
section
/-! DEFINITION. The instructions: one constructor for each row of spec/opcode_table.json. A field of the
encoding that decode ignores (R364) is no argument. A name ending in L is the literal form (OPRL, R361) of the
operate instruction before it. -/

namespace Sys2Proof

/-- The instructions of the opcode table (spec/30_encoding.md R362 to R369). The rule named at each
constructor gives its meaning. -/
inductive Instr where
  /-- `SYS_CALL`: R382. -/
  | sysCall (fn : BitVec 25)
  /-- `SYS_CALL_b`: R384. -/
  | sysCallB (fn : BitVec 25)
  /-- `CALL`: R527. -/
  | call (ra rb : Reg) (hint : BitVec 16)
  /-- `RET`: R528. -/
  | ret (ra rb : Reg) (hint : BitVec 16)
  /-- `JMP`: R529. -/
  | jmp (ra rb : Reg) (hint : BitVec 16)
  /-- `BR`: R770. -/
  | br (ra : Reg) (disp : BitVec 21)
  /-- `BSR`: R526. -/
  | bsr (ra : Reg) (disp : BitVec 21)
  /-- `BEQ`: R524. -/
  | beq (ra : Reg) (disp : BitVec 21)
  /-- `BNE`: R525. -/
  | bne (ra : Reg) (disp : BitVec 21)
  /-- `BLT`: R771. -/
  | blt (ra : Reg) (disp : BitVec 21)
  /-- `BLE`: R772. -/
  | ble (ra : Reg) (disp : BitVec 21)
  /-- `BGT`: R773. -/
  | bgt (ra : Reg) (disp : BitVec 21)
  /-- `BGE`: R774. -/
  | bge (ra : Reg) (disp : BitVec 21)
  /-- `BLBC`: R775. -/
  | blbc (ra : Reg) (disp : BitVec 21)
  /-- `BLBS`: R776. -/
  | blbs (ra : Reg) (disp : BitVec 21)
  /-- `FBEQ`: R777. -/
  | fbeq (fa : Reg) (disp : BitVec 21)
  /-- `FBNE`: R778. -/
  | fbne (fa : Reg) (disp : BitVec 21)
  /-- `FBLT`: R779. -/
  | fblt (fa : Reg) (disp : BitVec 21)
  /-- `FBLE`: R780. -/
  | fble (fa : Reg) (disp : BitVec 21)
  /-- `FBGT`: R781. -/
  | fbgt (fa : Reg) (disp : BitVec 21)
  /-- `FBGE`: R782. -/
  | fbge (fa : Reg) (disp : BitVec 21)
  /-- `MEMB`: R400. -/
  | memb
  /-- `IMEMB`: R401. -/
  | imemb
  /-- `RTC`: R407. -/
  | rtc (ra rb : Reg)
  /-- `RCID`: R408. -/
  | rcid (ra : Reg)
  /-- `HALT`: R410. -/
  | halt
  /-- `RD_F`: R508. -/
  | rdF (ra : Reg)
  /-- `WR_F`: R502. -/
  | wrF (ra : Reg)
  /-- `RTID`: R409. -/
  | rtid (ra : Reg)
  /-- `PRI_RCSR`: R388. -/
  | priRcsr (ra : Reg) (idx : BitVec 8)
  /-- `PRI_WCSR`: R389. -/
  | priWcsr (ra : Reg) (idx : BitVec 8)
  /-- `PRI_RET`: R386. -/
  | priRet (ra : Reg)
  /-- `PRI_RET_b`: R387. -/
  | priRetB (ra : Reg)
  /-- `LLDW`: R501. -/
  | lldw (ra rb : Reg) (disp : BitVec 12)
  /-- `LLDL`: R511. -/
  | lldl (ra rb : Reg) (disp : BitVec 12)
  /-- `LDW_INC`: R492. -/
  | ldwInc (ra rb : Reg) (disp : BitVec 12)
  /-- `LDL_INC`: R495. -/
  | ldlInc (ra rb : Reg) (disp : BitVec 12)
  /-- `LDW_DEC`: R496. -/
  | ldwDec (ra rb : Reg) (disp : BitVec 12)
  /-- `LDL_DEC`: R497. -/
  | ldlDec (ra rb : Reg) (disp : BitVec 12)
  /-- `LDW_SET`: R498. -/
  | ldwSet (ra rb : Reg) (disp : BitVec 12)
  /-- `LDL_SET`: R499. -/
  | ldlSet (ra rb : Reg) (disp : BitVec 12)
  /-- `LSTW`: R503. -/
  | lstw (ra rb : Reg) (disp : BitVec 12)
  /-- `LSTL`: R512. -/
  | lstl (ra rb : Reg) (disp : BitVec 12)
  /-- `LDW_NC`: R461. -/
  | ldwNc (ra rb : Reg) (disp : BitVec 12)
  /-- `LDL_NC`: R462. -/
  | ldlNc (ra rb : Reg) (disp : BitVec 12)
  /-- `LDD_NC`: R463. -/
  | lddNc (fa rb : Reg) (disp : BitVec 12)
  /-- `STW_NC`: R464. -/
  | stwNc (ra rb : Reg) (disp : BitVec 12)
  /-- `STL_NC`: R465. -/
  | stlNc (ra rb : Reg) (disp : BitVec 12)
  /-- `STD_NC`: R466. -/
  | stdNc (fa rb : Reg) (disp : BitVec 12)
  /-- `LDWE`: R441. -/
  | ldwe (fa rb : Reg) (disp : BitVec 16)
  /-- `LDSE`: R447. -/
  | ldse (fa rb : Reg) (disp : BitVec 16)
  /-- `LDDE`: R448. -/
  | ldde (fa rb : Reg) (disp : BitVec 16)
  /-- `VLDS`: R443. -/
  | vlds (fa rb : Reg) (disp : BitVec 16)
  /-- `VLDD`: R442. -/
  | vldd (fa rb : Reg) (disp : BitVec 16)
  /-- `VSTS`: R450. -/
  | vsts (fa rb : Reg) (disp : BitVec 16)
  /-- `VSTD`: R449. -/
  | vstd (fa rb : Reg) (disp : BitVec 16)
  /-- `ADDW`: R542. -/
  | addw (ra rb rc : Reg)
  /-- `ADDW` with the literal: R542. -/
  | addwL (ra : Reg) (lit : BitVec 8) (rc : Reg)
  /-- `SUBW`: R543. -/
  | subw (ra rb rc : Reg)
  /-- `SUBW` with the literal: R543. -/
  | subwL (ra : Reg) (lit : BitVec 8) (rc : Reg)
  /-- `ADDL`: R544. -/
  | addl (ra rb rc : Reg)
  /-- `ADDL` with the literal: R544. -/
  | addlL (ra : Reg) (lit : BitVec 8) (rc : Reg)
  /-- `SUBL`: R545. -/
  | subl (ra rb rc : Reg)
  /-- `SUBL` with the literal: R545. -/
  | sublL (ra : Reg) (lit : BitVec 8) (rc : Reg)
  /-- `MULW`: R546. -/
  | mulw (ra rb rc : Reg)
  /-- `MULW` with the literal: R546. -/
  | mulwL (ra : Reg) (lit : BitVec 8) (rc : Reg)
  /-- `MULL`: R547. -/
  | mull (ra rb rc : Reg)
  /-- `MULL` with the literal: R547. -/
  | mullL (ra : Reg) (lit : BitVec 8) (rc : Reg)
  /-- `UMULH`: R548. -/
  | umulh (ra rb rc : Reg)
  /-- `UMULH` with the literal: R548. -/
  | umulhL (ra : Reg) (lit : BitVec 8) (rc : Reg)
  /-- `CMPEQ`: R549. -/
  | cmpeq (ra rb rc : Reg)
  /-- `CMPEQ` with the literal: R549. -/
  | cmpeqL (ra : Reg) (lit : BitVec 8) (rc : Reg)
  /-- `CMPLT`: R550. -/
  | cmplt (ra rb rc : Reg)
  /-- `CMPLT` with the literal: R550. -/
  | cmpltL (ra : Reg) (lit : BitVec 8) (rc : Reg)
  /-- `CMPLE`: R551. -/
  | cmple (ra rb rc : Reg)
  /-- `CMPLE` with the literal: R551. -/
  | cmpleL (ra : Reg) (lit : BitVec 8) (rc : Reg)
  /-- `CMPULT`: R552. -/
  | cmpult (ra rb rc : Reg)
  /-- `CMPULT` with the literal: R552. -/
  | cmpultL (ra : Reg) (lit : BitVec 8) (rc : Reg)
  /-- `CMPULE`: R553. -/
  | cmpule (ra rb rc : Reg)
  /-- `CMPULE` with the literal: R553. -/
  | cmpuleL (ra : Reg) (lit : BitVec 8) (rc : Reg)
  /-- `AND`: R554. -/
  | and (ra rb rc : Reg)
  /-- `AND` with the literal: R554. -/
  | andL (ra : Reg) (lit : BitVec 8) (rc : Reg)
  /-- `BIC`: R555. -/
  | bic (ra rb rc : Reg)
  /-- `BIC` with the literal: R555. -/
  | bicL (ra : Reg) (lit : BitVec 8) (rc : Reg)
  /-- `BIS`: R556. -/
  | bis (ra rb rc : Reg)
  /-- `BIS` with the literal: R556. -/
  | bisL (ra : Reg) (lit : BitVec 8) (rc : Reg)
  /-- `ORNOT`: R557. -/
  | ornot (ra rb rc : Reg)
  /-- `ORNOT` with the literal: R557. -/
  | ornotL (ra : Reg) (lit : BitVec 8) (rc : Reg)
  /-- `XOR`: R558. -/
  | xor (ra rb rc : Reg)
  /-- `XOR` with the literal: R558. -/
  | xorL (ra : Reg) (lit : BitVec 8) (rc : Reg)
  /-- `EQV`: R559. -/
  | eqv (ra rb rc : Reg)
  /-- `EQV` with the literal: R559. -/
  | eqvL (ra : Reg) (lit : BitVec 8) (rc : Reg)
  /-- `NOP`: R406. -/
  | nop
  /-- `FIMOVS`: R568. -/
  | fimovs (fa rc : Reg)
  /-- `FIMOVD`: R569. -/
  | fimovd (fa rc : Reg)
  /-- `FADDD`: R562. -/
  | faddd (fa fb fc : Reg)
  /-- `IFMOVS`: R566. -/
  | ifmovs (ra fc : Reg)
  /-- `IFMOVD`: R567. -/
  | ifmovd (ra fc : Reg)
  /-- `RFPCR`: R402. -/
  | rfpcr (fa : Reg)
  /-- `WFPCR`: R403. -/
  | wfpcr (fa : Reg)
  /-- `SETFPEC0`: R404. -/
  | setfpec0
  /-- `SETFPEC1`: R412. -/
  | setfpec1
  /-- `SETFPEC2`: R413. -/
  | setfpec2
  /-- `SETFPEC3`: R414. -/
  | setfpec3
  /-- `VADDD`: R571. -/
  | vaddd (fa fb fc : Reg)
  /-- `VLDW_U`: R451. -/
  | vldwU (fa rb : Reg) (disp : BitVec 12)
  /-- `VSTW_U`: R454. -/
  | vstwU (fa rb : Reg) (disp : BitVec 12)
  /-- `VLDS_U`: R452. -/
  | vldsU (fa rb : Reg) (disp : BitVec 12)
  /-- `VSTS_U`: R455. -/
  | vstsU (fa rb : Reg) (disp : BitVec 12)
  /-- `VLDD_U`: R453. -/
  | vlddU (fa rb : Reg) (disp : BitVec 12)
  /-- `VSTD_U`: R456. -/
  | vstdU (fa rb : Reg) (disp : BitVec 12)
  /-- `VSTW_UL`: R457. -/
  | vstwUl (fa rb : Reg) (disp : BitVec 12)
  /-- `VSTW_UH`: R458. -/
  | vstwUh (fa rb : Reg) (disp : BitVec 12)
  /-- `VSTS_UL`: R459. -/
  | vstsUl (fa rb : Reg) (disp : BitVec 12)
  /-- `VSTS_UH`: R469. -/
  | vstsUh (fa rb : Reg) (disp : BitVec 12)
  /-- `VSTD_UL`: R476. -/
  | vstdUl (fa rb : Reg) (disp : BitVec 12)
  /-- `VSTD_UH`: R477. -/
  | vstdUh (fa rb : Reg) (disp : BitVec 12)
  /-- `VLDD_NC`: R467. -/
  | vlddNc (fa rb : Reg) (disp : BitVec 12)
  /-- `VSTD_NC`: R468. -/
  | vstdNc (fa rb : Reg) (disp : BitVec 12)
  /-- `LDBU`: R425. -/
  | ldbu (ra rb : Reg) (disp : BitVec 16)
  /-- `LDHU`: R426. -/
  | ldhu (ra rb : Reg) (disp : BitVec 16)
  /-- `LDW`: R427. -/
  | ldw (ra rb : Reg) (disp : BitVec 16)
  /-- `LDL`: R428. -/
  | ldl (ra rb : Reg) (disp : BitVec 16)
  /-- `LDL_U`: R429. -/
  | ldlU (ra rb : Reg) (disp : BitVec 16)
  /-- `FLDS`: R434. -/
  | flds (fa rb : Reg) (disp : BitVec 16)
  /-- `FLDD`: R435. -/
  | fldd (fa rb : Reg) (disp : BitVec 16)
  /-- `STB`: R430. -/
  | stb (ra rb : Reg) (disp : BitVec 16)
  /-- `STH`: R431. -/
  | sth (ra rb : Reg) (disp : BitVec 16)
  /-- `STW`: R432. -/
  | stw (ra rb : Reg) (disp : BitVec 16)
  /-- `STL`: R433. -/
  | stl (ra rb : Reg) (disp : BitVec 16)
  /-- `STL_U`: R446. -/
  | stlU (ra rb : Reg) (disp : BitVec 16)
  /-- `FSTS`: R436. -/
  | fsts (fa rb : Reg) (disp : BitVec 16)
  /-- `FSTD`: R437. -/
  | fstd (fa rb : Reg) (disp : BitVec 16)
  /-- `LDI`: R540. -/
  | ldi (ra rb : Reg) (disp : BitVec 16)
  /-- `LDIH`: R541. -/
  | ldih (ra rb : Reg) (disp : BitVec 16)
  /-- `PRI_LDW_p`: R391; no encoding in the spec (log 12). -/
  | priLdwP (ra rb : Reg) (disp : BitVec 12)
  /-- `PRI_LDL_p`: R391; no encoding in the spec (log 12). -/
  | priLdlP (ra rb : Reg) (disp : BitVec 12)
  /-- `PRI_LDW_INC_p`: R396; no encoding in the spec (log 12). -/
  | priLdwIncP (ra rb : Reg) (disp : BitVec 12)
  /-- `PRI_LDL_INC_p`: R396; no encoding in the spec (log 12). -/
  | priLdlIncP (ra rb : Reg) (disp : BitVec 12)
  /-- `PRI_LDW_DEC_p`: R397; no encoding in the spec (log 12). -/
  | priLdwDecP (ra rb : Reg) (disp : BitVec 12)
  /-- `PRI_LDL_DEC_p`: R397; no encoding in the spec (log 12). -/
  | priLdlDecP (ra rb : Reg) (disp : BitVec 12)
  /-- `PRI_LDW_SET_p`: R398; no encoding in the spec (log 12). -/
  | priLdwSetP (ra rb : Reg) (disp : BitVec 12)
  /-- `PRI_LDL_SET_p`: R398; no encoding in the spec (log 12). -/
  | priLdlSetP (ra rb : Reg) (disp : BitVec 12)
  /-- `PRI_LDW_v`: R392; no encoding in the spec (log 12). -/
  | priLdwV (ra rb : Reg) (disp : BitVec 12)
  /-- `PRI_LDL_v`: R392; no encoding in the spec (log 12). -/
  | priLdlV (ra rb : Reg) (disp : BitVec 12)
  /-- `PRI_LDW_vpte`: R783; no encoding in the spec (log 12). -/
  | priLdwVpte (ra rb : Reg) (disp : BitVec 12)
  /-- `PRI_LDL_vpte`: R783; no encoding in the spec (log 12). -/
  | priLdlVpte (ra rb : Reg) (disp : BitVec 12)
  /-- `PRI_STW_p`: R399; no encoding in the spec (log 12). -/
  | priStwP (ra rb : Reg) (disp : BitVec 12)
  /-- `PRI_STL_p`: R399; no encoding in the spec (log 12). -/
  | priStlP (ra rb : Reg) (disp : BitVec 12)
  /-- `PRI_STW_v`: R393; no encoding in the spec (log 12). -/
  | priStwV (ra rb : Reg) (disp : BitVec 12)
  /-- `PRI_STL_v`: R393; no encoding in the spec (log 12). -/
  | priStlV (ra rb : Reg) (disp : BitVec 12)
  /-- `FETCHD`: R471; no encoding in the spec (log 12). -/
  | fetchd (rb : Reg) (disp : BitVec 16)
  /-- `FETCHD_E`: R478; no encoding in the spec (log 12). -/
  | fetchdE (rb : Reg) (disp : BitVec 16)
  /-- `FLUSHD`: R472; no encoding in the spec (log 12). -/
  | flushd (rb : Reg) (disp : BitVec 16)
  /-- `EVICTDL`: R473; no encoding in the spec (log 12). -/
  | evictdl (rb : Reg) (disp : BitVec 16)
  /-- `EVICTDG`: R474; no encoding in the spec (log 12). -/
  | evictdg (rb : Reg) (disp : BitVec 16)
  /-- `VINSF`: R572; no encoding in the spec (log 12). -/
  | vinsf (fa fb : Reg) (idx : BitVec 2) (fc : Reg)
  /-- `VINSW`: R573; no encoding in the spec (log 12). -/
  | vinsw (fa fb : Reg) (idx : BitVec 3) (fc : Reg)
  /-- `VCPYF`: R574; no encoding in the spec (log 12). -/
  | vcpyf (fb fc : Reg)
  /-- `VEXTF`: R575; no encoding in the spec (log 12). -/
  | vextf (fa : Reg) (idx : BitVec 2) (fc : Reg)
  /-- `VEXTW`: R576; no encoding in the spec (log 12). -/
  | vextw (fa : Reg) (idx : BitVec 3) (fc : Reg)
  deriving DecidableEq, Repr

/-- The 26 rows of the opcode table that have no encoding (R355, R369): their words come from the
platform parameters PRI_LDST_DECODE and ENCODING_SUPPLEMENT (spec/92_eei_decisions.md; log 12). -/
def Instr.unencoded : Instr → Bool
  | .sysCall _ => false
  | .sysCallB _ => false
  | .call _ _ _ => false
  | .ret _ _ _ => false
  | .jmp _ _ _ => false
  | .br _ _ => false
  | .bsr _ _ => false
  | .beq _ _ => false
  | .bne _ _ => false
  | .blt _ _ => false
  | .ble _ _ => false
  | .bgt _ _ => false
  | .bge _ _ => false
  | .blbc _ _ => false
  | .blbs _ _ => false
  | .fbeq _ _ => false
  | .fbne _ _ => false
  | .fblt _ _ => false
  | .fble _ _ => false
  | .fbgt _ _ => false
  | .fbge _ _ => false
  | .memb => false
  | .imemb => false
  | .rtc _ _ => false
  | .rcid _ => false
  | .halt => false
  | .rdF _ => false
  | .wrF _ => false
  | .rtid _ => false
  | .priRcsr _ _ => false
  | .priWcsr _ _ => false
  | .priRet _ => false
  | .priRetB _ => false
  | .lldw _ _ _ => false
  | .lldl _ _ _ => false
  | .ldwInc _ _ _ => false
  | .ldlInc _ _ _ => false
  | .ldwDec _ _ _ => false
  | .ldlDec _ _ _ => false
  | .ldwSet _ _ _ => false
  | .ldlSet _ _ _ => false
  | .lstw _ _ _ => false
  | .lstl _ _ _ => false
  | .ldwNc _ _ _ => false
  | .ldlNc _ _ _ => false
  | .lddNc _ _ _ => false
  | .stwNc _ _ _ => false
  | .stlNc _ _ _ => false
  | .stdNc _ _ _ => false
  | .ldwe _ _ _ => false
  | .ldse _ _ _ => false
  | .ldde _ _ _ => false
  | .vlds _ _ _ => false
  | .vldd _ _ _ => false
  | .vsts _ _ _ => false
  | .vstd _ _ _ => false
  | .addw _ _ _ => false
  | .addwL _ _ _ => false
  | .subw _ _ _ => false
  | .subwL _ _ _ => false
  | .addl _ _ _ => false
  | .addlL _ _ _ => false
  | .subl _ _ _ => false
  | .sublL _ _ _ => false
  | .mulw _ _ _ => false
  | .mulwL _ _ _ => false
  | .mull _ _ _ => false
  | .mullL _ _ _ => false
  | .umulh _ _ _ => false
  | .umulhL _ _ _ => false
  | .cmpeq _ _ _ => false
  | .cmpeqL _ _ _ => false
  | .cmplt _ _ _ => false
  | .cmpltL _ _ _ => false
  | .cmple _ _ _ => false
  | .cmpleL _ _ _ => false
  | .cmpult _ _ _ => false
  | .cmpultL _ _ _ => false
  | .cmpule _ _ _ => false
  | .cmpuleL _ _ _ => false
  | .and _ _ _ => false
  | .andL _ _ _ => false
  | .bic _ _ _ => false
  | .bicL _ _ _ => false
  | .bis _ _ _ => false
  | .bisL _ _ _ => false
  | .ornot _ _ _ => false
  | .ornotL _ _ _ => false
  | .xor _ _ _ => false
  | .xorL _ _ _ => false
  | .eqv _ _ _ => false
  | .eqvL _ _ _ => false
  | .nop => false
  | .fimovs _ _ => false
  | .fimovd _ _ => false
  | .faddd _ _ _ => false
  | .ifmovs _ _ => false
  | .ifmovd _ _ => false
  | .rfpcr _ => false
  | .wfpcr _ => false
  | .setfpec0 => false
  | .setfpec1 => false
  | .setfpec2 => false
  | .setfpec3 => false
  | .vaddd _ _ _ => false
  | .vldwU _ _ _ => false
  | .vstwU _ _ _ => false
  | .vldsU _ _ _ => false
  | .vstsU _ _ _ => false
  | .vlddU _ _ _ => false
  | .vstdU _ _ _ => false
  | .vstwUl _ _ _ => false
  | .vstwUh _ _ _ => false
  | .vstsUl _ _ _ => false
  | .vstsUh _ _ _ => false
  | .vstdUl _ _ _ => false
  | .vstdUh _ _ _ => false
  | .vlddNc _ _ _ => false
  | .vstdNc _ _ _ => false
  | .ldbu _ _ _ => false
  | .ldhu _ _ _ => false
  | .ldw _ _ _ => false
  | .ldl _ _ _ => false
  | .ldlU _ _ _ => false
  | .flds _ _ _ => false
  | .fldd _ _ _ => false
  | .stb _ _ _ => false
  | .sth _ _ _ => false
  | .stw _ _ _ => false
  | .stl _ _ _ => false
  | .stlU _ _ _ => false
  | .fsts _ _ _ => false
  | .fstd _ _ _ => false
  | .ldi _ _ _ => false
  | .ldih _ _ _ => false
  | .priLdwP _ _ _ => true
  | .priLdlP _ _ _ => true
  | .priLdwIncP _ _ _ => true
  | .priLdlIncP _ _ _ => true
  | .priLdwDecP _ _ _ => true
  | .priLdlDecP _ _ _ => true
  | .priLdwSetP _ _ _ => true
  | .priLdlSetP _ _ _ => true
  | .priLdwV _ _ _ => true
  | .priLdlV _ _ _ => true
  | .priLdwVpte _ _ _ => true
  | .priLdlVpte _ _ _ => true
  | .priStwP _ _ _ => true
  | .priStlP _ _ _ => true
  | .priStwV _ _ _ => true
  | .priStlV _ _ _ => true
  | .fetchd _ _ => true
  | .fetchdE _ _ => true
  | .flushd _ _ => true
  | .evictdl _ _ => true
  | .evictdg _ _ => true
  | .vinsf _ _ _ _ => true
  | .vinsw _ _ _ _ => true
  | .vcpyf _ _ => true
  | .vextf _ _ _ => true
  | .vextw _ _ _ => true

end Sys2Proof
end

