-- ==== Sys2Proof/WellFormed.lean ====
section
/-! DEFINITION. Which terms of Instr are instructions. Register numbers, literals and displacements are
bit vectors of their fields' widths, so the one check left is that NOP has its own constructor. -/

namespace Sys2Proof

/-- The word of `BIS R31,R31,R31` is the instruction NOP (R366, R406), so the term `bis 31 31 31` is no
instruction; every other term is one (log 13). -/
def Instr.wellFormed : Instr → Bool
  | .bis ra rb rc => !(ra == 31 && rb == 31 && rc == 31)
  | .sysCall _ => true
  | .sysCallB _ => true
  | .call _ _ _ => true
  | .ret _ _ _ => true
  | .jmp _ _ _ => true
  | .br _ _ => true
  | .bsr _ _ => true
  | .beq _ _ => true
  | .bne _ _ => true
  | .blt _ _ => true
  | .ble _ _ => true
  | .bgt _ _ => true
  | .bge _ _ => true
  | .blbc _ _ => true
  | .blbs _ _ => true
  | .fbeq _ _ => true
  | .fbne _ _ => true
  | .fblt _ _ => true
  | .fble _ _ => true
  | .fbgt _ _ => true
  | .fbge _ _ => true
  | .memb => true
  | .imemb => true
  | .rtc _ _ => true
  | .rcid _ => true
  | .halt => true
  | .rdF _ => true
  | .wrF _ => true
  | .rtid _ => true
  | .priRcsr _ _ => true
  | .priWcsr _ _ => true
  | .priRet _ => true
  | .priRetB _ => true
  | .lldw _ _ _ => true
  | .lldl _ _ _ => true
  | .ldwInc _ _ _ => true
  | .ldlInc _ _ _ => true
  | .ldwDec _ _ _ => true
  | .ldlDec _ _ _ => true
  | .ldwSet _ _ _ => true
  | .ldlSet _ _ _ => true
  | .lstw _ _ _ => true
  | .lstl _ _ _ => true
  | .ldwNc _ _ _ => true
  | .ldlNc _ _ _ => true
  | .lddNc _ _ _ => true
  | .stwNc _ _ _ => true
  | .stlNc _ _ _ => true
  | .stdNc _ _ _ => true
  | .ldwe _ _ _ => true
  | .ldse _ _ _ => true
  | .ldde _ _ _ => true
  | .vlds _ _ _ => true
  | .vldd _ _ _ => true
  | .vsts _ _ _ => true
  | .vstd _ _ _ => true
  | .addw _ _ _ => true
  | .addwL _ _ _ => true
  | .subw _ _ _ => true
  | .subwL _ _ _ => true
  | .addl _ _ _ => true
  | .addlL _ _ _ => true
  | .subl _ _ _ => true
  | .sublL _ _ _ => true
  | .mulw _ _ _ => true
  | .mulwL _ _ _ => true
  | .mull _ _ _ => true
  | .mullL _ _ _ => true
  | .umulh _ _ _ => true
  | .umulhL _ _ _ => true
  | .cmpeq _ _ _ => true
  | .cmpeqL _ _ _ => true
  | .cmplt _ _ _ => true
  | .cmpltL _ _ _ => true
  | .cmple _ _ _ => true
  | .cmpleL _ _ _ => true
  | .cmpult _ _ _ => true
  | .cmpultL _ _ _ => true
  | .cmpule _ _ _ => true
  | .cmpuleL _ _ _ => true
  | .and _ _ _ => true
  | .andL _ _ _ => true
  | .bic _ _ _ => true
  | .bicL _ _ _ => true
  | .bisL _ _ _ => true
  | .ornot _ _ _ => true
  | .ornotL _ _ _ => true
  | .xor _ _ _ => true
  | .xorL _ _ _ => true
  | .eqv _ _ _ => true
  | .eqvL _ _ _ => true
  | .nop => true
  | .fimovs _ _ => true
  | .fimovd _ _ => true
  | .faddd _ _ _ => true
  | .ifmovs _ _ => true
  | .ifmovd _ _ => true
  | .rfpcr _ => true
  | .wfpcr _ => true
  | .setfpec0 => true
  | .setfpec1 => true
  | .setfpec2 => true
  | .setfpec3 => true
  | .vaddd _ _ _ => true
  | .vldwU _ _ _ => true
  | .vstwU _ _ _ => true
  | .vldsU _ _ _ => true
  | .vstsU _ _ _ => true
  | .vlddU _ _ _ => true
  | .vstdU _ _ _ => true
  | .vstwUl _ _ _ => true
  | .vstwUh _ _ _ => true
  | .vstsUl _ _ _ => true
  | .vstsUh _ _ _ => true
  | .vstdUl _ _ _ => true
  | .vstdUh _ _ _ => true
  | .vlddNc _ _ _ => true
  | .vstdNc _ _ _ => true
  | .ldbu _ _ _ => true
  | .ldhu _ _ _ => true
  | .ldw _ _ _ => true
  | .ldl _ _ _ => true
  | .ldlU _ _ _ => true
  | .flds _ _ _ => true
  | .fldd _ _ _ => true
  | .stb _ _ _ => true
  | .sth _ _ _ => true
  | .stw _ _ _ => true
  | .stl _ _ _ => true
  | .stlU _ _ _ => true
  | .fsts _ _ _ => true
  | .fstd _ _ _ => true
  | .ldi _ _ _ => true
  | .ldih _ _ _ => true
  | .priLdwP _ _ _ => true
  | .priLdlP _ _ _ => true
  | .priLdwIncP _ _ _ => true
  | .priLdlIncP _ _ _ => true
  | .priLdwDecP _ _ _ => true
  | .priLdlDecP _ _ _ => true
  | .priLdwSetP _ _ _ => true
  | .priLdlSetP _ _ _ => true
  | .priLdwV _ _ _ => true
  | .priLdlV _ _ _ => true
  | .priLdwVpte _ _ _ => true
  | .priLdlVpte _ _ _ => true
  | .priStwP _ _ _ => true
  | .priStlP _ _ _ => true
  | .priStwV _ _ _ => true
  | .priStlV _ _ _ => true
  | .fetchd _ _ => true
  | .fetchdE _ _ => true
  | .flushd _ _ => true
  | .evictdl _ _ => true
  | .evictdg _ _ => true
  | .vinsf _ _ _ _ => true
  | .vinsw _ _ _ _ => true
  | .vcpyf _ _ => true
  | .vextf _ _ _ => true
  | .vextw _ _ _ => true

end Sys2Proof
end

