-- ==== Sys2Proof/Decode.lean ====
section
/-! DEFINITION. From the 32 bits of an instruction to a term of Instr and back (spec/30_encoding.md R350 to
R370). The field positions and most opcodes are the spec's Part B, general knowledge (log 1, PRESUMED). A word the
table does not contain has no instruction: it is refused by name in step (R357, R370; log 33). -/

namespace Sys2Proof

/-- The opcode, bits [31:26] (R351). -/
def fieldOp (w : InsnWord) : BitVec 6 := w.extractLsb' 26 6
/-- The Ra field, bits [25:21] (R360). -/
def fieldRa (w : InsnWord) : Reg := w.extractLsb' 21 5
/-- The Rb field, bits [20:16] (R360). -/
def fieldRb (w : InsnWord) : Reg := w.extractLsb' 16 5
/-- The Rc field, bits [4:0] (R360). -/
def fieldRc (w : InsnWord) : Reg := w.extractLsb' 0 5
/-- The literal, bits [20:13] (R360). -/
def fieldLit (w : InsnWord) : BitVec 8 := w.extractLsb' 13 8
/-- Bits [15:13], zero in the register operate formats (R361). -/
def fieldZero (w : InsnWord) : BitVec 3 := w.extractLsb' 13 3
/-- The function code fn8, bits [12:5] (R360). -/
def fieldFn8 (w : InsnWord) : BitVec 8 := w.extractLsb' 5 8
/-- The displacement disp16, or the hint of a jump, bits [15:0] (R360, R361). -/
def fieldDisp16 (w : InsnWord) : BitVec 16 := w.extractLsb' 0 16
/-- The function code fn4, bits [15:12] (R360). -/
def fieldFn4 (w : InsnWord) : BitVec 4 := w.extractLsb' 12 4
/-- The displacement disp12, bits [11:0] (R360). -/
def fieldDisp12 (w : InsnWord) : BitVec 12 := w.extractLsb' 0 12
/-- The displacement disp21, bits [20:0] (R360). -/
def fieldDisp21 (w : InsnWord) : BitVec 21 := w.extractLsb' 0 21
/-- The high byte of fn16, bits [15:8] (R354). -/
def fieldFnHi (w : InsnWord) : BitVec 8 := w.extractLsb' 8 8
/-- The low byte of fn16, bits [7:0]: the CSR index (R354). -/
def fieldFnLo (w : InsnWord) : BitVec 8 := w.extractLsb' 0 8
/-- Bit 25, the SYS_CALL variant (R353). -/
def fieldB25 (w : InsnWord) : BitVec 1 := w.extractLsb' 25 1
/-- The function code fn25 of SYS_CALL, bits [24:0] (R353). -/
def fieldFn25 (w : InsnWord) : BitVec 25 := w.extractLsb' 0 25
/-- Bit 20, which selects PRI_RET/b (R363). -/
def fieldB20 (w : InsnWord) : BitVec 1 := w.extractLsb' 20 1

/-- Opcode 0x06: by the CSR function codes 0xFE and 0xFF, else by all of fn16 (R364, R370). -/
def decodeMisc (w : InsnWord) : Option Instr :=
  if fieldFnHi w = 0xFE then some (.priRcsr (fieldRa w) (fieldFnLo w))
  else if fieldFnHi w = 0xFF then some (.priWcsr (fieldRa w) (fieldFnLo w))
  else match (fieldDisp16 w).toNat with
  | 0x0000 => some (.memb)
  | 0x0001 => some (.imemb)
  | 0x0020 => some (.rtc (fieldRa w) (fieldRb w))
  | 0x0040 => some (.rcid (fieldRa w))
  | 0x0080 => some (.halt)
  | 0x1000 => some (.rdF (fieldRa w))
  | 0x1020 => some (.wrF (fieldRa w))
  | 0x1040 => some (.rtid (fieldRa w))
  | _ => none

/-- Opcode 0x08, by fn4 (R365). -/
def decodeFn08 (w : InsnWord) : Option Instr :=
  match (fieldFn4 w).toNat with
  | 0x00 => some (.lldw (fieldRa w) (fieldRb w) (fieldDisp12 w))
  | 0x01 => some (.lldl (fieldRa w) (fieldRb w) (fieldDisp12 w))
  | 0x02 => some (.ldwInc (fieldRa w) (fieldRb w) (fieldDisp12 w))
  | 0x03 => some (.ldlInc (fieldRa w) (fieldRb w) (fieldDisp12 w))
  | 0x04 => some (.ldwDec (fieldRa w) (fieldRb w) (fieldDisp12 w))
  | 0x05 => some (.ldlDec (fieldRa w) (fieldRb w) (fieldDisp12 w))
  | 0x06 => some (.ldwSet (fieldRa w) (fieldRb w) (fieldDisp12 w))
  | 0x07 => some (.ldlSet (fieldRa w) (fieldRb w) (fieldDisp12 w))
  | 0x08 => some (.lstw (fieldRa w) (fieldRb w) (fieldDisp12 w))
  | 0x09 => some (.lstl (fieldRa w) (fieldRb w) (fieldDisp12 w))
  | 0x0A => some (.ldwNc (fieldRa w) (fieldRb w) (fieldDisp12 w))
  | 0x0B => some (.ldlNc (fieldRa w) (fieldRb w) (fieldDisp12 w))
  | 0x0C => some (.lddNc (fieldRa w) (fieldRb w) (fieldDisp12 w))
  | 0x0D => some (.stwNc (fieldRa w) (fieldRb w) (fieldDisp12 w))
  | 0x0E => some (.stlNc (fieldRa w) (fieldRb w) (fieldDisp12 w))
  | 0x0F => some (.stdNc (fieldRa w) (fieldRb w) (fieldDisp12 w))
  | _ => none

/-- Opcode 0x1C, by fn4 (R368). -/
def decodeFn1C (w : InsnWord) : Option Instr :=
  match (fieldFn4 w).toNat with
  | 0x00 => some (.vldwU (fieldRa w) (fieldRb w) (fieldDisp12 w))
  | 0x01 => some (.vstwU (fieldRa w) (fieldRb w) (fieldDisp12 w))
  | 0x02 => some (.vldsU (fieldRa w) (fieldRb w) (fieldDisp12 w))
  | 0x03 => some (.vstsU (fieldRa w) (fieldRb w) (fieldDisp12 w))
  | 0x04 => some (.vlddU (fieldRa w) (fieldRb w) (fieldDisp12 w))
  | 0x05 => some (.vstdU (fieldRa w) (fieldRb w) (fieldDisp12 w))
  | 0x08 => some (.vstwUl (fieldRa w) (fieldRb w) (fieldDisp12 w))
  | 0x09 => some (.vstwUh (fieldRa w) (fieldRb w) (fieldDisp12 w))
  | 0x0A => some (.vstsUl (fieldRa w) (fieldRb w) (fieldDisp12 w))
  | 0x0B => some (.vstsUh (fieldRa w) (fieldRb w) (fieldDisp12 w))
  | 0x0C => some (.vstdUl (fieldRa w) (fieldRb w) (fieldDisp12 w))
  | 0x0D => some (.vstdUh (fieldRa w) (fieldRb w) (fieldDisp12 w))
  | 0x0E => some (.vlddNc (fieldRa w) (fieldRb w) (fieldDisp12 w))
  | 0x0F => some (.vstdNc (fieldRa w) (fieldRb w) (fieldDisp12 w))
  | _ => none

/-- Opcode 0x10 with bits [15:13] zero, by fn8 (R366); `BIS R31,R31,R31` is NOP (R406, log 13). -/
def decodeOpr10 (w : InsnWord) : Option Instr :=
  match (fieldFn8 w).toNat with
  | 0x00 => some (.addw (fieldRa w) (fieldRb w) (fieldRc w))
  | 0x01 => some (.subw (fieldRa w) (fieldRb w) (fieldRc w))
  | 0x08 => some (.addl (fieldRa w) (fieldRb w) (fieldRc w))
  | 0x09 => some (.subl (fieldRa w) (fieldRb w) (fieldRc w))
  | 0x10 => some (.mulw (fieldRa w) (fieldRb w) (fieldRc w))
  | 0x18 => some (.mull (fieldRa w) (fieldRb w) (fieldRc w))
  | 0x19 => some (.umulh (fieldRa w) (fieldRb w) (fieldRc w))
  | 0x28 => some (.cmpeq (fieldRa w) (fieldRb w) (fieldRc w))
  | 0x29 => some (.cmplt (fieldRa w) (fieldRb w) (fieldRc w))
  | 0x2A => some (.cmple (fieldRa w) (fieldRb w) (fieldRc w))
  | 0x2B => some (.cmpult (fieldRa w) (fieldRb w) (fieldRc w))
  | 0x2C => some (.cmpule (fieldRa w) (fieldRb w) (fieldRc w))
  | 0x38 => some (.and (fieldRa w) (fieldRb w) (fieldRc w))
  | 0x39 => some (.bic (fieldRa w) (fieldRb w) (fieldRc w))
  | 0x3A => if w = 0x43FF075F then some .nop else some (.bis (fieldRa w) (fieldRb w) (fieldRc w))
  | 0x3B => some (.ornot (fieldRa w) (fieldRb w) (fieldRc w))
  | 0x3C => some (.xor (fieldRa w) (fieldRb w) (fieldRc w))
  | 0x3D => some (.eqv (fieldRa w) (fieldRb w) (fieldRc w))
  | 0x70 => some (.fimovs (fieldRa w) (fieldRc w))
  | 0x78 => some (.fimovd (fieldRa w) (fieldRc w))
  | _ => none

/-- Opcode 0x12, by fn8 (R366). The table holds for both opcodes, so FIMOVS and FIMOVD stand here too, their literal
field unused; `encode` gives their words under opcode 0x10. -/
def decodeOpr12 (w : InsnWord) : Option Instr :=
  match (fieldFn8 w).toNat with
  | 0x00 => some (.addwL (fieldRa w) (fieldLit w) (fieldRc w))
  | 0x01 => some (.subwL (fieldRa w) (fieldLit w) (fieldRc w))
  | 0x08 => some (.addlL (fieldRa w) (fieldLit w) (fieldRc w))
  | 0x09 => some (.sublL (fieldRa w) (fieldLit w) (fieldRc w))
  | 0x10 => some (.mulwL (fieldRa w) (fieldLit w) (fieldRc w))
  | 0x18 => some (.mullL (fieldRa w) (fieldLit w) (fieldRc w))
  | 0x19 => some (.umulhL (fieldRa w) (fieldLit w) (fieldRc w))
  | 0x28 => some (.cmpeqL (fieldRa w) (fieldLit w) (fieldRc w))
  | 0x29 => some (.cmpltL (fieldRa w) (fieldLit w) (fieldRc w))
  | 0x2A => some (.cmpleL (fieldRa w) (fieldLit w) (fieldRc w))
  | 0x2B => some (.cmpultL (fieldRa w) (fieldLit w) (fieldRc w))
  | 0x2C => some (.cmpuleL (fieldRa w) (fieldLit w) (fieldRc w))
  | 0x38 => some (.andL (fieldRa w) (fieldLit w) (fieldRc w))
  | 0x39 => some (.bicL (fieldRa w) (fieldLit w) (fieldRc w))
  | 0x3A => some (.bisL (fieldRa w) (fieldLit w) (fieldRc w))
  | 0x3B => some (.ornotL (fieldRa w) (fieldLit w) (fieldRc w))
  | 0x3C => some (.xorL (fieldRa w) (fieldLit w) (fieldRc w))
  | 0x3D => some (.eqvL (fieldRa w) (fieldLit w) (fieldRc w))
  | 0x70 => some (.fimovs (fieldRa w) (fieldRc w))
  | 0x78 => some (.fimovd (fieldRa w) (fieldRc w))
  | _ => none

/-- Opcode 0x18 with bits [15:13] zero, by fn8 (R367). -/
def decodeOpr18 (w : InsnWord) : Option Instr :=
  match (fieldFn8 w).toNat with
  | 0x01 => some (.faddd (fieldRa w) (fieldRb w) (fieldRc w))
  | 0x40 => some (.ifmovs (fieldRa w) (fieldRc w))
  | 0x41 => some (.ifmovd (fieldRa w) (fieldRc w))
  | 0x50 => some (.rfpcr (fieldRa w))
  | 0x51 => some (.wfpcr (fieldRa w))
  | 0x54 => some (.setfpec0)
  | 0x55 => some (.setfpec1)
  | 0x56 => some (.setfpec2)
  | 0x57 => some (.setfpec3)
  | _ => none

/-- Opcode 0x1A with bits [15:13] zero: VADDD (R367). -/
def decodeOpr1A (w : InsnWord) : Option Instr :=
  match (fieldFn8 w).toNat with
  | 0x81 => some (.vaddd (fieldRa w) (fieldRb w) (fieldRc w))
  | _ => none

/-- The instruction of a word by the tables of R362 to R368; none where they have no row (R370). -/
def decodeTable (w : InsnWord) : Option Instr :=
  match (fieldOp w).toNat with
  | 0x00 => if fieldB25 w = 1 then some (.sysCall (fieldFn25 w)) else some (.sysCallB (fieldFn25 w))
  | 0x01 => some (.call (fieldRa w) (fieldRb w) (fieldDisp16 w))
  | 0x02 => some (.ret (fieldRa w) (fieldRb w) (fieldDisp16 w))
  | 0x03 => some (.jmp (fieldRa w) (fieldRb w) (fieldDisp16 w))
  | 0x04 => some (.br (fieldRa w) (fieldDisp21 w))
  | 0x05 => some (.bsr (fieldRa w) (fieldDisp21 w))
  | 0x06 => decodeMisc w
  | 0x07 => if fieldB20 w = 1 then some (.priRetB (fieldRa w)) else some (.priRet (fieldRa w))
  | 0x08 => decodeFn08 w
  | 0x09 => some (.ldwe (fieldRa w) (fieldRb w) (fieldDisp16 w))
  | 0x0A => some (.ldse (fieldRa w) (fieldRb w) (fieldDisp16 w))
  | 0x0B => some (.ldde (fieldRa w) (fieldRb w) (fieldDisp16 w))
  | 0x0C => some (.vlds (fieldRa w) (fieldRb w) (fieldDisp16 w))
  | 0x0D => some (.vldd (fieldRa w) (fieldRb w) (fieldDisp16 w))
  | 0x0E => some (.vsts (fieldRa w) (fieldRb w) (fieldDisp16 w))
  | 0x0F => some (.vstd (fieldRa w) (fieldRb w) (fieldDisp16 w))
  | 0x10 => if fieldZero w = 0 then decodeOpr10 w else none
  | 0x12 => decodeOpr12 w
  | 0x18 => if fieldZero w = 0 then decodeOpr18 w else none
  | 0x1A => if fieldZero w = 0 then decodeOpr1A w else none
  | 0x1C => decodeFn1C w
  | 0x20 => some (.ldbu (fieldRa w) (fieldRb w) (fieldDisp16 w))
  | 0x21 => some (.ldhu (fieldRa w) (fieldRb w) (fieldDisp16 w))
  | 0x22 => some (.ldw (fieldRa w) (fieldRb w) (fieldDisp16 w))
  | 0x23 => some (.ldl (fieldRa w) (fieldRb w) (fieldDisp16 w))
  | 0x24 => some (.ldlU (fieldRa w) (fieldRb w) (fieldDisp16 w))
  | 0x26 => some (.flds (fieldRa w) (fieldRb w) (fieldDisp16 w))
  | 0x27 => some (.fldd (fieldRa w) (fieldRb w) (fieldDisp16 w))
  | 0x28 => some (.stb (fieldRa w) (fieldRb w) (fieldDisp16 w))
  | 0x29 => some (.sth (fieldRa w) (fieldRb w) (fieldDisp16 w))
  | 0x2A => some (.stw (fieldRa w) (fieldRb w) (fieldDisp16 w))
  | 0x2B => some (.stl (fieldRa w) (fieldRb w) (fieldDisp16 w))
  | 0x2C => some (.stlU (fieldRa w) (fieldRb w) (fieldDisp16 w))
  | 0x2E => some (.fsts (fieldRa w) (fieldRb w) (fieldDisp16 w))
  | 0x2F => some (.fstd (fieldRa w) (fieldRb w) (fieldDisp16 w))
  | 0x30 => some (.beq (fieldRa w) (fieldDisp21 w))
  | 0x31 => some (.bne (fieldRa w) (fieldDisp21 w))
  | 0x32 => some (.blt (fieldRa w) (fieldDisp21 w))
  | 0x33 => some (.ble (fieldRa w) (fieldDisp21 w))
  | 0x34 => some (.bgt (fieldRa w) (fieldDisp21 w))
  | 0x35 => some (.bge (fieldRa w) (fieldDisp21 w))
  | 0x36 => some (.blbc (fieldRa w) (fieldDisp21 w))
  | 0x37 => some (.blbs (fieldRa w) (fieldDisp21 w))
  | 0x38 => some (.fbeq (fieldRa w) (fieldDisp21 w))
  | 0x39 => some (.fbne (fieldRa w) (fieldDisp21 w))
  | 0x3A => some (.fblt (fieldRa w) (fieldDisp21 w))
  | 0x3B => some (.fble (fieldRa w) (fieldDisp21 w))
  | 0x3C => some (.fbgt (fieldRa w) (fieldDisp21 w))
  | 0x3D => some (.fbge (fieldRa w) (fieldDisp21 w))
  | 0x3E => some (.ldi (fieldRa w) (fieldRb w) (fieldDisp16 w))
  | 0x3F => some (.ldih (fieldRa w) (fieldRb w) (fieldDisp16 w))
  | _ => none

/-- The opcode of a row without an encoding, where the spec gives it: 0x25 for PRI_LD, 0x2D for PRI_ST (R354, R355). -/
def Instr.supplementOp : Instr → Option (BitVec 6)
  | .priLdwP _ _ _ | .priLdlP _ _ _ | .priLdwIncP _ _ _ | .priLdlIncP _ _ _ | .priLdwDecP _ _ _ => some 0x25
  | .priLdlDecP _ _ _ | .priLdwSetP _ _ _ | .priLdlSetP _ _ _ | .priLdwV _ _ _ | .priLdlV _ _ _ => some 0x25
  | .priLdwVpte _ _ _ | .priLdlVpte _ _ _ => some 0x25
  | .priStwP _ _ _ | .priStlP _ _ _ | .priStwV _ _ _ | .priStlV _ _ _ => some 0x2D
  | _ => none

/-- A supplement may give this instruction this word: it has no encoding of its own, and the opcode is the spec's where
the spec gives one. -/
def Instr.mayStandFor (i : Instr) (w : InsnWord) : Bool :=
  i.unencoded && match i.supplementOp with | some op => fieldOp w == op | none => true

/-- The first entry of the supplement for a word that names one of the rows without an encoding. -/
def lookupSupplement : List (InsnWord × Instr) → InsnWord → Option Instr
  | [], _ => none
  | (k, i) :: rest, w => if k = w ∧ i.mayStandFor w = true then some i else lookupSupplement rest w

/-- The instruction of a word: the platform's supplement gives the words of the 26 rows without an encoding
(PRI_LDST_DECODE and ENCODING_SUPPLEMENT, R355, R369, R370; log 12), the tables give all others. -/
def decode (supplement : List (InsnWord × Instr)) (w : InsnWord) : Option Instr :=
  match lookupSupplement supplement w with
  | some i => some i
  | none => decodeTable w

/-- The word of four bytes, the first at the lowest address: little-endian (R350; log 10). -/
def wordOfBytes (b0 b1 b2 b3 : Byte) : InsnWord := b3 ++ b2 ++ b1 ++ b0

/-- The four bytes of a word in memory order (R350). -/
def bytesOfWord (w : InsnWord) : List Byte :=
  [w.extractLsb' 0 8, w.extractLsb' 8 8, w.extractLsb' 16 8, w.extractLsb' 24 8]

/-- The decoder over bytes: an instruction is exactly four bytes (R350). -/
def decodeBytes (supplement : List (InsnWord × Instr)) : List Byte → Option Instr
  | [b0, b1, b2, b3] => decode supplement (wordOfBytes b0 b1 b2 b3)
  | _ => none

/-- What the decoder, with an empty supplement, reads from the bits `w` laid out in memory order. Bits of a row
above `nbits` are zero; an instruction has 32 bits (R350). -/
def decodeTableWord (nbits w : Nat) : Option Instr :=
  decodeBytes [] (bytesOfWord (BitVec.ofNat 32 (w % 2 ^ nbits)))

/-! The encoder, from the same tables. A register field the format does not use is written as 31 (R364). -/

/-- MEM format (R361). -/
def encMem (op : BitVec 6) (ra rb : Reg) (d : BitVec 16) : InsnWord := op ++ ra ++ rb ++ d
/-- MEMFN format (R361). -/
def encMemFn (op : BitVec 6) (fn : BitVec 4) (ra rb : Reg) (d : BitVec 12) : InsnWord := op ++ ra ++ rb ++ fn ++ d
/-- BRANCH format (R361). -/
def encBranch (op : BitVec 6) (ra : Reg) (d : BitVec 21) : InsnWord := op ++ ra ++ d
/-- OPR and FPOPR format (R361). -/
def encOpr (op : BitVec 6) (fn : BitVec 8) (ra rb rc : Reg) : InsnWord := op ++ ra ++ rb ++ (0 : BitVec 3) ++ fn ++ rc
/-- OPRL format (R361). -/
def encOprL (op : BitVec 6) (fn : BitVec 8) (ra : Reg) (lit : BitVec 8) (rc : Reg) : InsnWord := op ++ ra ++ lit ++ fn ++ rc
/-- PRI_RCSR and PRI_WCSR (R354, R364). -/
def encCsr (fn : BitVec 8) (ra : Reg) (idx : BitVec 8) : InsnWord := (0x06 : BitVec 6) ++ ra ++ (31 : Reg) ++ fn ++ idx
/-- SYS_CALL format (R353). -/
def encSys (b : BitVec 1) (fn : BitVec 25) : InsnWord := (0x00 : BitVec 6) ++ b ++ fn
/-- PRI_RET: Ra and the /b bit (R363); the other bits are written as 0. -/
def encPriRet (b : BitVec 1) (ra : Reg) : InsnWord := (0x07 : BitVec 6) ++ ra ++ b ++ (0 : BitVec 20)

/-- The word of an instruction; none for the rows without an encoding (R369). -/
def encode : Instr → Option InsnWord
  | .sysCall fn => some (encSys 1 fn)
  | .sysCallB fn => some (encSys 0 fn)
  | .call ra rb hint => some (encMem 0x01 ra rb hint)
  | .ret ra rb hint => some (encMem 0x02 ra rb hint)
  | .jmp ra rb hint => some (encMem 0x03 ra rb hint)
  | .br ra disp => some (encBranch 0x04 ra disp)
  | .bsr ra disp => some (encBranch 0x05 ra disp)
  | .beq ra disp => some (encBranch 0x30 ra disp)
  | .bne ra disp => some (encBranch 0x31 ra disp)
  | .blt ra disp => some (encBranch 0x32 ra disp)
  | .ble ra disp => some (encBranch 0x33 ra disp)
  | .bgt ra disp => some (encBranch 0x34 ra disp)
  | .bge ra disp => some (encBranch 0x35 ra disp)
  | .blbc ra disp => some (encBranch 0x36 ra disp)
  | .blbs ra disp => some (encBranch 0x37 ra disp)
  | .fbeq fa disp => some (encBranch 0x38 fa disp)
  | .fbne fa disp => some (encBranch 0x39 fa disp)
  | .fblt fa disp => some (encBranch 0x3A fa disp)
  | .fble fa disp => some (encBranch 0x3B fa disp)
  | .fbgt fa disp => some (encBranch 0x3C fa disp)
  | .fbge fa disp => some (encBranch 0x3D fa disp)
  | .memb => some (encMem 0x06 31 31 0x0000)
  | .imemb => some (encMem 0x06 31 31 0x0001)
  | .rtc ra rb => some (encMem 0x06 ra rb 0x0020)
  | .rcid ra => some (encMem 0x06 ra 31 0x0040)
  | .halt => some (encMem 0x06 31 31 0x0080)
  | .rdF ra => some (encMem 0x06 ra 31 0x1000)
  | .wrF ra => some (encMem 0x06 ra 31 0x1020)
  | .rtid ra => some (encMem 0x06 ra 31 0x1040)
  | .priRcsr ra idx => some (encCsr 0xFE ra idx)
  | .priWcsr ra idx => some (encCsr 0xFF ra idx)
  | .priRet ra => some (encPriRet 0 ra)
  | .priRetB ra => some (encPriRet 1 ra)
  | .lldw ra rb disp => some (encMemFn 0x08 0x00 ra rb disp)
  | .lldl ra rb disp => some (encMemFn 0x08 0x01 ra rb disp)
  | .ldwInc ra rb disp => some (encMemFn 0x08 0x02 ra rb disp)
  | .ldlInc ra rb disp => some (encMemFn 0x08 0x03 ra rb disp)
  | .ldwDec ra rb disp => some (encMemFn 0x08 0x04 ra rb disp)
  | .ldlDec ra rb disp => some (encMemFn 0x08 0x05 ra rb disp)
  | .ldwSet ra rb disp => some (encMemFn 0x08 0x06 ra rb disp)
  | .ldlSet ra rb disp => some (encMemFn 0x08 0x07 ra rb disp)
  | .lstw ra rb disp => some (encMemFn 0x08 0x08 ra rb disp)
  | .lstl ra rb disp => some (encMemFn 0x08 0x09 ra rb disp)
  | .ldwNc ra rb disp => some (encMemFn 0x08 0x0A ra rb disp)
  | .ldlNc ra rb disp => some (encMemFn 0x08 0x0B ra rb disp)
  | .lddNc fa rb disp => some (encMemFn 0x08 0x0C fa rb disp)
  | .stwNc ra rb disp => some (encMemFn 0x08 0x0D ra rb disp)
  | .stlNc ra rb disp => some (encMemFn 0x08 0x0E ra rb disp)
  | .stdNc fa rb disp => some (encMemFn 0x08 0x0F fa rb disp)
  | .ldwe fa rb disp => some (encMem 0x09 fa rb disp)
  | .ldse fa rb disp => some (encMem 0x0A fa rb disp)
  | .ldde fa rb disp => some (encMem 0x0B fa rb disp)
  | .vlds fa rb disp => some (encMem 0x0C fa rb disp)
  | .vldd fa rb disp => some (encMem 0x0D fa rb disp)
  | .vsts fa rb disp => some (encMem 0x0E fa rb disp)
  | .vstd fa rb disp => some (encMem 0x0F fa rb disp)
  | .addw ra rb rc => some (encOpr 0x10 0x00 ra rb rc)
  | .addwL ra lit rc => some (encOprL 0x12 0x00 ra lit rc)
  | .subw ra rb rc => some (encOpr 0x10 0x01 ra rb rc)
  | .subwL ra lit rc => some (encOprL 0x12 0x01 ra lit rc)
  | .addl ra rb rc => some (encOpr 0x10 0x08 ra rb rc)
  | .addlL ra lit rc => some (encOprL 0x12 0x08 ra lit rc)
  | .subl ra rb rc => some (encOpr 0x10 0x09 ra rb rc)
  | .sublL ra lit rc => some (encOprL 0x12 0x09 ra lit rc)
  | .mulw ra rb rc => some (encOpr 0x10 0x10 ra rb rc)
  | .mulwL ra lit rc => some (encOprL 0x12 0x10 ra lit rc)
  | .mull ra rb rc => some (encOpr 0x10 0x18 ra rb rc)
  | .mullL ra lit rc => some (encOprL 0x12 0x18 ra lit rc)
  | .umulh ra rb rc => some (encOpr 0x10 0x19 ra rb rc)
  | .umulhL ra lit rc => some (encOprL 0x12 0x19 ra lit rc)
  | .cmpeq ra rb rc => some (encOpr 0x10 0x28 ra rb rc)
  | .cmpeqL ra lit rc => some (encOprL 0x12 0x28 ra lit rc)
  | .cmplt ra rb rc => some (encOpr 0x10 0x29 ra rb rc)
  | .cmpltL ra lit rc => some (encOprL 0x12 0x29 ra lit rc)
  | .cmple ra rb rc => some (encOpr 0x10 0x2A ra rb rc)
  | .cmpleL ra lit rc => some (encOprL 0x12 0x2A ra lit rc)
  | .cmpult ra rb rc => some (encOpr 0x10 0x2B ra rb rc)
  | .cmpultL ra lit rc => some (encOprL 0x12 0x2B ra lit rc)
  | .cmpule ra rb rc => some (encOpr 0x10 0x2C ra rb rc)
  | .cmpuleL ra lit rc => some (encOprL 0x12 0x2C ra lit rc)
  | .and ra rb rc => some (encOpr 0x10 0x38 ra rb rc)
  | .andL ra lit rc => some (encOprL 0x12 0x38 ra lit rc)
  | .bic ra rb rc => some (encOpr 0x10 0x39 ra rb rc)
  | .bicL ra lit rc => some (encOprL 0x12 0x39 ra lit rc)
  | .bis ra rb rc => some (encOpr 0x10 0x3A ra rb rc)
  | .bisL ra lit rc => some (encOprL 0x12 0x3A ra lit rc)
  | .ornot ra rb rc => some (encOpr 0x10 0x3B ra rb rc)
  | .ornotL ra lit rc => some (encOprL 0x12 0x3B ra lit rc)
  | .xor ra rb rc => some (encOpr 0x10 0x3C ra rb rc)
  | .xorL ra lit rc => some (encOprL 0x12 0x3C ra lit rc)
  | .eqv ra rb rc => some (encOpr 0x10 0x3D ra rb rc)
  | .eqvL ra lit rc => some (encOprL 0x12 0x3D ra lit rc)
  | .nop => some (0x43FF075F)
  | .fimovs fa rc => some (encOpr 0x10 0x70 fa 31 rc)
  | .fimovd fa rc => some (encOpr 0x10 0x78 fa 31 rc)
  | .faddd fa fb fc => some (encOpr 0x18 0x01 fa fb fc)
  | .ifmovs ra fc => some (encOpr 0x18 0x40 ra 31 fc)
  | .ifmovd ra fc => some (encOpr 0x18 0x41 ra 31 fc)
  | .rfpcr fa => some (encOpr 0x18 0x50 fa 31 31)
  | .wfpcr fa => some (encOpr 0x18 0x51 fa 31 31)
  | .setfpec0 => some (encOpr 0x18 0x54 31 31 31)
  | .setfpec1 => some (encOpr 0x18 0x55 31 31 31)
  | .setfpec2 => some (encOpr 0x18 0x56 31 31 31)
  | .setfpec3 => some (encOpr 0x18 0x57 31 31 31)
  | .vaddd fa fb fc => some (encOpr 0x1A 0x81 fa fb fc)
  | .vldwU fa rb disp => some (encMemFn 0x1C 0x00 fa rb disp)
  | .vstwU fa rb disp => some (encMemFn 0x1C 0x01 fa rb disp)
  | .vldsU fa rb disp => some (encMemFn 0x1C 0x02 fa rb disp)
  | .vstsU fa rb disp => some (encMemFn 0x1C 0x03 fa rb disp)
  | .vlddU fa rb disp => some (encMemFn 0x1C 0x04 fa rb disp)
  | .vstdU fa rb disp => some (encMemFn 0x1C 0x05 fa rb disp)
  | .vstwUl fa rb disp => some (encMemFn 0x1C 0x08 fa rb disp)
  | .vstwUh fa rb disp => some (encMemFn 0x1C 0x09 fa rb disp)
  | .vstsUl fa rb disp => some (encMemFn 0x1C 0x0A fa rb disp)
  | .vstsUh fa rb disp => some (encMemFn 0x1C 0x0B fa rb disp)
  | .vstdUl fa rb disp => some (encMemFn 0x1C 0x0C fa rb disp)
  | .vstdUh fa rb disp => some (encMemFn 0x1C 0x0D fa rb disp)
  | .vlddNc fa rb disp => some (encMemFn 0x1C 0x0E fa rb disp)
  | .vstdNc fa rb disp => some (encMemFn 0x1C 0x0F fa rb disp)
  | .ldbu ra rb disp => some (encMem 0x20 ra rb disp)
  | .ldhu ra rb disp => some (encMem 0x21 ra rb disp)
  | .ldw ra rb disp => some (encMem 0x22 ra rb disp)
  | .ldl ra rb disp => some (encMem 0x23 ra rb disp)
  | .ldlU ra rb disp => some (encMem 0x24 ra rb disp)
  | .flds fa rb disp => some (encMem 0x26 fa rb disp)
  | .fldd fa rb disp => some (encMem 0x27 fa rb disp)
  | .stb ra rb disp => some (encMem 0x28 ra rb disp)
  | .sth ra rb disp => some (encMem 0x29 ra rb disp)
  | .stw ra rb disp => some (encMem 0x2A ra rb disp)
  | .stl ra rb disp => some (encMem 0x2B ra rb disp)
  | .stlU ra rb disp => some (encMem 0x2C ra rb disp)
  | .fsts fa rb disp => some (encMem 0x2E fa rb disp)
  | .fstd fa rb disp => some (encMem 0x2F fa rb disp)
  | .ldi ra rb disp => some (encMem 0x3E ra rb disp)
  | .ldih ra rb disp => some (encMem 0x3F ra rb disp)
  | .priLdwP _ _ _ => none
  | .priLdlP _ _ _ => none
  | .priLdwIncP _ _ _ => none
  | .priLdlIncP _ _ _ => none
  | .priLdwDecP _ _ _ => none
  | .priLdlDecP _ _ _ => none
  | .priLdwSetP _ _ _ => none
  | .priLdlSetP _ _ _ => none
  | .priLdwV _ _ _ => none
  | .priLdlV _ _ _ => none
  | .priLdwVpte _ _ _ => none
  | .priLdlVpte _ _ _ => none
  | .priStwP _ _ _ => none
  | .priStlP _ _ _ => none
  | .priStwV _ _ _ => none
  | .priStlV _ _ _ => none
  | .fetchd _ _ => none
  | .fetchdE _ _ => none
  | .flushd _ _ => none
  | .evictdl _ _ => none
  | .evictdg _ _ => none
  | .vinsf _ _ _ _ => none
  | .vinsw _ _ _ _ => none
  | .vcpyf _ _ => none
  | .vextf _ _ _ => none
  | .vextw _ _ _ => none

end Sys2Proof
end

