-- ==== Sys2Proof/Machine/State.lean ====
section
/-! DEFINITION. What the machine holds: every piece of state the spec gives one Core3A core (spec/10_state.md R20 to
R55), the platform parameters, and the model's own bookkeeping, all as plain data. INVENTORY.md lists each field with
the rule that names it and its reset value. -/

namespace Sys2Proof.Machine

/-- A processor mode, pc[1:0]: 00 HM, 01 VM, 10 KM, 11 UM (R26). -/
inductive Mode where
  /-- 00, hardware mode. -/
  | hm
  /-- 01, virtual mode. -/
  | vm
  /-- 10, kernel mode. -/
  | km
  /-- 11, user mode. -/
  | um
  deriving DecidableEq, Repr

/-- The privileged entries (spec/60_exceptions.md R590, R591). -/
inductive Exc where
  | dtbmDouble | dtbmSingle0 | dtbmSingle1 | itbMiss0 | itbMiss1 | fen | unalign | arith
  | dfault | iacv | opcdec | interrupt0 | interrupt1 | sleep | mchk
  deriving DecidableEq, Repr

/-- What the core is doing (spec/41_system_misc.md R410, spec/61_interrupts_platform.md R677). -/
inductive CoreState where
  | running
  /-- Halted by HALT, woken by an interrupt (R410, R711). -/
  | halted
  /-- Held in the sleep reset, left only by a wake-up or a reset (R677, R710). -/
  | asleep
  deriving DecidableEq, Repr

/-- Why the machine stops with no next state. -/
inductive Fault where
  /-- Raised by the DTB lookup when more than one entry matches: the spec gives no outcome and asks for a stuck state
  (spec/21_translation.md R273, spec/93_implementation_defined.md U9). Safe: the machine stops. -/
  | dtbMultiHit
  deriving DecidableEq, Repr

/-- Why an instruction or a step has no meaning here. -/
inductive Refusal where
  /-- Raised by an arm of `exec` that has no meaning yet. Safe. -/
  | notModelled (mnemonic : String)
  /-- Raised by `step` on a word outside the opcode table: not modelled, never OPCDEC and never NOP (R357, U10). Safe. -/
  | unknownWord (w : InsnWord)
  /-- Raised by a PRI_WCSR of a way-enable field that is neither all ones nor one-hot: UNPREDICTABLE (R151, R165, U5).
  Safe: the machine stops where the hardware goes on. -/
  | wayEnable
  deriving DecidableEq, Repr

/-- The integer operations whose overflow trap the spec leaves to the platform (parameter INT_OVERFLOW_SET). -/
inductive IntOp where
  | addw | subw | addl | subl | mulw | mull
  deriving DecidableEq, Repr

/-- An I/O register the source names (R680), or a device register of the platform whose behaviour it does not give. -/
inductive Ior where
  | inten | iintMis | siFaultStat | intlos
  /-- MAIL_BOX_i, the message port of core i. -/
  | mailBox (i : BitVec 4)
  /-- MAIL_STAT_i. -/
  | mailStat (i : BitVec 4)
  | mtInt | cpmCoreSleep | cpmProbeOk | sleepDone | coreOnline | initCtl | chipCore
  /-- A register of a device, readable; `writable` says whether it may be written. -/
  | device (writable : Bool)
  deriving DecidableEq, Repr

/-- The type of the data in an F or V register, by the instruction that last wrote it (spec/10_state.md R30,
spec/93_implementation_defined.md U16; log 59). -/
inductive DataKind where
  /-- Nothing has written the register since a reset: suits every use. -/
  | unwritten
  /-- A 64-bit image moved unchanged, from memory or an integer register: a double or an integer (R405). -/
  | image
  | single
  | double
  | integer
  /-- Elements of types that do not go together: suits no use. -/
  | mixed
  deriving DecidableEq, Repr

/-- One instruction-cache line (spec/21_translation.md R277): its tags, the physical line it was filled from, its 32
instruction words, and whether its parity is wrong. -/
structure ICacheLine where
  /-- PC[12:7]. -/
  index : BitVec 6
  /-- VA[52:13]. -/
  tag : BitVec 40
  pm : BitVec 2
  vpn : BitVec 2
  upn : BitVec 8
  ks : Bool
  /-- PA[46:7] of the line. -/
  line : BitVec 40
  words : Vector InsnWord 32
  /-- The data parity bits are wrong (R312). -/
  badData : Bool
  /-- The tag parity bit is wrong (R312). -/
  badTag : Bool
  deriving DecidableEq, Repr

/-- What is wrong in the data cache (spec/22_errors.md R317 to R319). -/
inductive CellErrorKind where
  /-- One bit of a datum. -/
  | single
  /-- More than one bit of a datum. -/
  | multi
  /-- The parity of a line's tag. -/
  | tag
  deriving DecidableEq, Repr

/-- An error that stands in the data cache (spec/22_errors.md R317 to R319; log 67). -/
structure CellError where
  /-- The first location of the datum that is wrong, or of the line whose tag is. -/
  addr : Nat
  /-- Its bytes. -/
  size : Nat
  kind : CellErrorKind
  /-- The other lines of its set accessed since, the last one first, each once: seven replace the line (R280). -/
  others : List Nat := []
  /-- The lines of the same address bits PA[15:7] flushed since, each once: eight drive out a line whose tag is wrong
  (R317). -/
  flushed : List Nat := []
  deriving DecidableEq, Repr

/-- A detected hardware error, an input from outside the fault-free machine (spec/22_errors.md R341; log 44). -/
inductive HwError where
  /-- Instruction-cache tag parity (R312); the four lines of that index are flushed. -/
  | icTagParity (index : BitVec 6)
  /-- Instruction-cache data parity (R312). -/
  | icDataParity (index : BitVec 6)
  /-- Tag parity in the second level's copy of the instruction-cache tags (R320); the lines of that index are flushed. -/
  | icCopyParity (index : BitVec 6)
  /-- Illegal reorder-buffer state (R316). -/
  | robError
  /-- A CSR instruction issue error of the data-cache unit (R337 item 1). -/
  | csrIssueError
  /-- Multi-bit ECC error in the response to the next fetch that reads line PA[45:7] from memory: the line's bytes are
  damaged from here on (R313, R326). -/
  | fetchMemError (line : Nat)
  /-- Control-error flag in the next fetch's response (R315). -/
  | fetchAckError
  /-- Wrong tag parity of line PA[45:7] in the data cache, there until the line leaves it (R317). -/
  | dcTagParity (line : Nat)
  /-- An ECC error in the data-cache data array, there until the line leaves the cache (R318, R319); `refilled` when the
  line has been written back and filled anew since it was last stored to, and so is clean. -/
  | dcDataError (e : CellError) (refilled : Bool)
  /-- Multi-bit ECC error in the next data response for line PA[45:7]: its bytes are damaged from here on (R321, R326). -/
  | dataMemError (line : Nat)
  /-- Multi-bit ECC error in the response to the next load from I/O space (R321, R333, R616). -/
  | ioMemError
  /-- Control-error flag in the next data response (R322). -/
  | dataAckError
  /-- Probe inconsistent with the data cache's state (R328). -/
  | probeError
  /-- Corrected error of a load's second-level read, replayed (R149 SCD_SERR, R324). -/
  | loadReplay
  /-- The error that SC_STAT bit `bit` records (R167, R323 to R328); bit 30 has an event of its own. An uncorrectable
  error (bits 1, 3, 5 and 12) damages the bytes of line PA[45:7] (log 67). -/
  | scError (bit : BitVec 5) (line : Nat)
  deriving DecidableEq, Repr

/-- A non-cacheable store that takes effect before its place in the program (spec/20_memory.md R225; log 27). -/
structure EarlyStore where
  /-- The program comes to it within so many steps. -/
  within : Nat
  addr : Nat
  size : Nat
  value : Vec
  deriving DecidableEq, Repr

/-- The same once it has taken effect, until the program comes to it. -/
structure EarlyDone extends EarlyStore where
  /-- What its bytes hold for instruction fetches, which see no store before its place in the program (R247). -/
  under : Vec
  deriving DecidableEq, Repr

/-- What the environment does to the core (spec/61_interrupts_platform.md R653, spec/92_eei_decisions.md D31; log 7). -/
inductive EnvEvent where
  /-- The external interrupt of a source arrives; EXT_INT_MAP gives its number (R651, R675). -/
  | external (source : Nat)
  /-- Inter-core interrupt 0 from core `src` arrives (R661). -/
  | interCore0 (src : BitVec 4)
  /-- Inter-core interrupt 1 from core `src` arrives (R661). -/
  | interCore1 (src : BitVec 4)
  /-- Core `src` stores a message into this core's mailbox (R662). -/
  | mailStored (src : BitVec 4) (message : Word)
  /-- A message interrupt request reaches this core (R662). -/
  | mailRequest
  /-- A sleep interrupt arrives (R676). -/
  | sleepInterrupt
  /-- The request in INT_REQ has been sent (R660). -/
  | intReqSent
  /-- Another agent writes one byte of memory space. -/
  | agentWrite (addr : BitVec 46) (value : Byte)
  /-- A hardware prefetch or a probe drives line PA[45:7] out of the data cache (R151, R280; log 67). -/
  | lineReplaced (line : Nat)
  /-- Another core is connected or disconnected (R660, R662; log 41). -/
  | coreConnection (core : BitVec 4) (connected : Bool)
  /-- A device or the maintenance side changes an I/O register (R680). -/
  | iorSet (r : Ior) (value : Word)
  /-- A non-cacheable store of the program to come takes effect now, before the cacheable accesses between; the event does
  something only if the program does come to that store (spec/20_memory.md R225, R460; log 27). -/
  | earlyStore (p : EarlyStore)
  /-- A hardware error is detected (R341). -/
  | hwError (e : HwError)
  /-- The maintenance interface puts the core to sleep (R677 step 5). -/
  | sleepEnter
  /-- Wake-up (R678, R723). -/
  | wakeUp
  /-- Cold reset (R720, R721). -/
  | coldReset
  /-- Power-on reset (R720, R721). -/
  | powerOnReset
  deriving DecidableEq, Repr

/-- What the core sends outside (log 7). -/
inductive OutEvent where
  /-- SOFT_ERR went from 0 to 1, or a write met an illegal address (R121, R327). -/
  | softwareFault
  /-- HARD_ERR went from 0 to 1, or a hardware fault is reported (R122, R337). -/
  | hardwareFault
  /-- The corrected-error count reached its threshold (R329, R337). -/
  | correctedErrors
  /-- A multi-bit ECC error is reported (R337 item 4). -/
  | multiBitErrors
  /-- An inter-core, sleep or wake-up interrupt is sent through INT_REQ (R660). -/
  | intRequest (ty : BitVec 2) (target : BitVec 16)
  /-- A message is stored into the mailbox of core i (R662). -/
  | mail (i : BitVec 4) (message : Word)
  /-- A write to an I/O register (R680): its address, its size in bytes and its data. -/
  | ioWrite (addr : PAddr) (size : Nat) (data : Word)
  /-- A read of a device register (R680). -/
  | ioRead (addr : PAddr) (size : Nat)
  deriving DecidableEq, Repr

/-- The platform parameters (spec/00_scope.md R8, the OPEN rows of spec/92_eei_decisions.md; log 5). -/
structure Platform where
  /-- MEM_SIZE: bytes of memory space that exist. -/
  memSize : Nat
  /-- CORE_ID: CID[3:0]. -/
  coreId : BitVec 4
  /-- IOR_MAP: the I/O registers that exist, by the address of their aligned 8 bytes, of which bits [45:3] count (R424). -/
  iorMap : List (Nat × Ior)
  /-- How many messages the own mailbox holds (R662). -/
  mailDepth : Nat
  /-- HALT_IN_HM: true when HALT in HM is a NOP, false when it raises OPCDEC. -/
  haltInHmNop : Bool
  /-- LDL_U_BEHAVIOUR: true when LDL_U ignores the low three address bits, false when it checks them. -/
  ldlUIgnores : Bool
  /-- The sign check is made for the /p forms too, as R236 says in passing; false by default: it is not, as R391, the rule
  of these forms, says (log 15). -/
  physSignCheck : Bool
  /-- A replayed load sets DS_STAT[SCD_SERR], as the register's table (R149) and R324 say, true by default; false: the bit
  stays 0, as R607 says in passing (log 68). -/
  scdSerrRecorded : Bool
  /-- The substitute instruction enters at PRI_BASE + 0x5D80: R335 writes that, R383 computes 0x7D80 (log 43). -/
  substituteAsWritten : Bool
  /-- SYS_CALL/b writes EXC_PC: false by default, as R382 and R384, the rules of the instruction, say; true as R699 says in
  passing (log 65). -/
  sysCallBRecordsPc : Bool
  /-- INT_OVERFLOW_SET: the integer operations that may trap on overflow. -/
  intOverflow : List IntOp
  /-- HSERR_CARRY_CONVENTION: true when overflow is a carry into the selected bit, false when out of it. -/
  hserrCarryInto : Bool
  /-- PRI_LDST_DECODE and ENCODING_SUPPLEMENT: the words of the rows without an encoding. -/
  supplement : List (InsnWord × Instr)
  /-- EXT_INT_MAP: the number of each external source; a number INT_VEC gives to a source of the core's own is no
  external one. -/
  extIntMap : List (Nat × BitVec 8)
  /-- INIT_PROGRAM: the bytes loaded into memory at power-on and cold reset. -/
  initProgram : List Host.Cell
  /-- INIT_PROGRAM: the lines preloaded into the instruction cache at power-on and cold reset. -/
  initICache : List ICacheLine
  /-- CP_CTL as the maintenance side configures it at power-on and cold reset (R54, R169). -/
  cpCtl : Word
  deriving DecidableEq, Repr

/-- One ITB entry (spec/21_translation.md R262). -/
structure ItbEntry where
  /-- Virtual page number VA[52:13]. -/
  tag : BitVec 40
  /-- Physical page number PA[46:13]. -/
  pfn : BitVec 34
  gh : BitVec 2
  uee : Bool
  kee : Bool
  vee : Bool
  vpn : BitVec 2
  upn : BitVec 8
  ks : Bool
  deriving DecidableEq, Repr

/-- One DTB entry (spec/21_translation.md R269). -/
structure DtbEntry where
  /-- Virtual page number VA[52:13]. -/
  tag : BitVec 40
  /-- Physical page number PA[47:13]. -/
  pa : BitVec 35
  gh : BitVec 2
  ure : Bool
  kre : Bool
  vre : Bool
  hre : Bool
  uwe : Bool
  kwe : Bool
  vwe : Bool
  hwe : Bool
  faultOnRead : Bool
  faultOnWrite : Bool
  vpn : BitVec 2
  upn : BitVec 8
  ks : Bool
  deriving DecidableEq, Repr

/-- How far the value a store overwrote is from being invisible to fetches (spec/20_memory.md R247; log 26). -/
inductive OldStage where
  /-- No MEMB since the store. -/
  | stored
  /-- A MEMB followed the store. -/
  | ordered
  /-- And then no instruction-cache line holds the old value any more. -/
  | flushed
  deriving DecidableEq, Repr

/-- A store, or a part of one, and the bytes that stood there before it. -/
structure Overwrite where
  addr : Nat
  size : Nat
  /-- The bytes before the store. -/
  old : Vec
  deriving DecidableEq, Repr

/-- A store whose overwritten bytes a fetch may still see (R247; log 26). -/
structure OldStore extends Overwrite where
  stage : OldStage
  deriving DecidableEq, Repr

/-- The CSRs of the instruction unit with storage (spec/11_csr_ibox.md). -/
structure IBox where
  itbTag : Word
  ptbr : Word
  iiEr : Word
  ii0 : BitVec 16
  ii1 : BitVec 16
  iiMail : BitVec 6
  excSum : Word
  excPc : Word
  priBase : Word
  isCtl : Word
  issueCtl : Word
  isStat : Word
  vptBase : Word
  vpcr : Word
  iaMatch : Word
  iaMask : Word
  intVec : Word
  upcr : Word
  pc0Cr : Word
  pc1Cr : Word
  hserrCnt : Word
  hserrTh : Word
  iglInst : Word
  softErr : Word
  hardErr : Word
  timerCtl : Word
  timerTh : Word
  /-- The 256 request bits behind INT_STAT0 to INT_STAT3 (R93). -/
  pending : BitVec 256
  /-- The 256 enable bits IER0 to IER3 (R91). -/
  ier : BitVec 256
  deriving DecidableEq, Repr

/-- The CSRs of the data-cache unit with storage (spec/12_csr_dbox_sbox_ebox.md). -/
structure DBox where
  dtbTag : Word
  dtbPcr : Word
  dsStat : Word
  dsCtl : Word
  dcCtl : Word
  dcStat : Word
  daMatch : Word
  daMask : Word
  daMatchMode : Word
  dva : Word
  dvMatch : Word
  dvMask : Word
  deriving DecidableEq, Repr

/-- The CSRs of the second-level-cache unit (spec/12_csr_dbox_sbox_ebox.md). -/
structure SBox where
  scCtl : Word
  scStat : Word
  intReq : Word
  cpCtl : Word
  mergeOvtime : Word
  deriving DecidableEq, Repr

/-- The CSRs of the integer unit (spec/12_csr_dbox_sbox_ebox.md). -/
structure EBox where
  iva : Word
  tc : Word
  tcCtl : Word
  icr : Word
  /-- CID[63:8]; CID[3:0] is `Platform.coreId` (R180). -/
  cidHi : BitVec 56
  idaMatch : Word
  idaMask : Word
  tid : Word
  /-- SOFTCSR0 to SOFTCSR47 (R182). -/
  softcsr : Vector Word 48
  deriving DecidableEq, Repr

/-- The I/O registers the source names (spec/61_interrupts_platform.md R680). -/
structure IorRegs where
  inten : Word
  iintMis : Word
  siFaultStat : Word
  intlos : Word
  mtInt : Word
  cpmCoreSleep : Word
  cpmProbeOk : Word
  sleepDone : Word
  coreOnline : Word
  initCtl : Word
  chipCore : Word
  /-- The messages queued in the own mailbox, the oldest first (R662). -/
  mailQueue : List Word
  /-- FULL_FLAG of the own MAIL_STAT: a message from core n was lost (R662). -/
  mailFull : BitVec 16
  deriving DecidableEq, Repr

/-- The lock state (spec/10_state.md R34). -/
structure LockRegs where
  valid : Bool
  flag : Bool
  success : Bool
  addr : PAddr
  /-- lock_size: 4 for word, 8 for long. -/
  size : Nat
  /-- MODEL's own: no other agent has written the locked line since the lock load (log 25). -/
  kept : Bool
  deriving DecidableEq, Repr

/-- The whole machine. Fields from `plat` on are the model's own (INVENTORY.md). -/
structure State where
  /-- The program counter with the mode in bits [1:0] (R26). -/
  pc : Word
  /-- R0 to R30; slot 31 is never read (R20, R21). -/
  gpr : Vector Word 32
  /-- SR1, SR2, SR4 to SR7, SR20 to SR23 (R24). -/
  sr : Vector Word 10
  /-- V0 to V30, whose low 64 bits are F0 to F30; slot 31 is never read (R30). -/
  vr : Vector Vec 32
  /-- FPCR; bit 63 is computed on read (R190 to R195). -/
  fpcr : Word
  lock : LockRegs
  coreState : CoreState
  /-- Memory space, PA[45:0] to bytes, in canonical form (R213; log 4). -/
  mem : List Host.Cell
  ibox : IBox
  dbox : DBox
  sbox : SBox
  ebox : EBox
  itb : List ItbEntry
  dtb : List DtbEntry
  icache : List ICacheLine
  /-- The counter behind TIMER_CTL (R52, R671). -/
  timerCount : Word
  /-- The time counter behind HSERR_TH (R52, R119). -/
  hserrTime : Word
  /-- The merge-window wait counter that MERGE_OVTIME bounds; none while no window is open (R52, R170, R231; log 28). -/
  mergeWait : Option Nat
  /-- The pc the last sleep interrupt interrupted (R720). -/
  sleepBreak : Word
  ior : IorRegs
  plat : Platform
  /-- How many free values have been drawn (log 9). -/
  draws : Nat
  /-- What the environment does, one entry a step: an event, or nothing (log 7). -/
  inputs : List (Option EnvEvent)
  /-- What the core has sent, the oldest first (log 7). -/
  outputs : List OutEvent
  /-- The instruction word being executed (log 52). -/
  ir : InsnWord
  /-- The other word of its pair of slots (R505; log 52). -/
  pair : InsnWord
  /-- The exception or interrupt the last step entered, for the event counters (log 52). -/
  lastExc : Option Exc
  /-- Stores whose overwritten bytes a fetch may still see, the latest first (log 26). -/
  codeHist : List OldStore
  /-- The parts of non-cacheable stores since the last MEMB that may not have taken effect yet, each within one aligned
  eight bytes, the latest first (R225, R249; log 27). -/
  ncRecent : List Overwrite
  /-- The non-cacheable stores that have taken effect before their place in the program (R225; log 27). -/
  early : List EarlyDone
  /-- An early store has turned out to be none of the program's: no run of the hardware is so (log 27). -/
  earlyBroken : Bool
  /-- Addresses of bytes stored cacheably that may stand in the core's caches only (R50, R723; log 45). -/
  unflushed : List Nat
  /-- The lines PA[45:7] that may be dirty in the data cache: stored to through it, and not known to have left it since
  (R167, R318; log 67). -/
  dcDirty : List Nat
  /-- The cores that are disconnected, one bit each (R660, R662; log 41). -/
  disconnected : BitVec 16
  /-- What kind of data each vector register holds (R30, U16; log 59). -/
  kinds : Vector DataKind 32
  /-- The pc right after the last PRI_WCSR to IDA_MATCH (R750, U30; log 58). -/
  idaMatchWriter : Option Word
  /-- The pc right after the last PRI_WCSR to IDA_MASK (R750, U30; log 58). -/
  idaMaskWriter : Option Word
  /-- The address and Ra of the PRI_RET whose target is about to be fetched (R618; D18; log 22). -/
  retJump : Option (Word × Reg)
  /-- The timer threshold was written while the timer ran (U6; log 36). -/
  timerWild : Bool
  /-- The SC_STAT bits of illegal-address responses to retired writes, not reported yet (R331; log 42). -/
  lateErrors : List (BitVec 5)
  /-- The errors that stand in the data cache (R317 to R319; log 67). -/
  dcErrors : List CellError
  /-- A detected error that waits for the next data access (log 44). -/
  armed : Option HwError
  /-- A detected error that waits for the next fetch (log 44). -/
  armedFetch : Option HwError
  deriving DecidableEq, Repr

/-! Reset values (spec/10_state.md R54, spec/70_reset_and_hazards.md R730). A register the spec gives no value is 0,
DESIGN CHOICE, unsafe (log 2). -/

/-- The spec's defaults for the platform parameters; MEM_SIZE all of memory space (log 5). Where two rules disagree the
default is the reading that the order of precedence of spec/90_conflicts.md gives: a register's own table before running
prose, the rules of the subject before a passing mention (log 15, log 65, log 68). Where that order decides nothing it is an
open constant (log 43). -/
def Platform.default : Platform :=
  { memSize := 2 ^ 46, coreId := 0, iorMap := [], mailDepth := 16, haltInHmNop := false, ldlUIgnores := false,
    physSignCheck := false, scdSerrRecorded := true,
    substituteAsWritten := Config.substituteAsWritten, sysCallBRecordsPc := false,
    intOverflow := [], hserrCarryInto := false, supplement := [], extIntMap := [], initProgram := [], initICache := [],
    cpCtl := 0x1C }

/-- The instruction unit after power-on reset. -/
def IBox.reset : IBox :=
  { itbTag := 0, ptbr := 0, iiEr := 0, ii0 := 0, ii1 := 0, iiMail := 0, excSum := 0, excPc := 0, priBase := 0,
    isCtl := 0x101F8, issueCtl := 0xFFFFF, isStat := 0, vptBase := 0, vpcr := 0, iaMatch := 0,
    iaMask := 0x7FFFFFFFFFFFFFFF, intVec := 0x0000FAFBFCFDFEFF, upcr := 7, pc0Cr := 0, pc1Cr := 0, hserrCnt := 0,
    hserrTh := 0x1F, iglInst := 0, softErr := 0, hardErr := 0, timerCtl := 0, timerTh := 0, pending := 0, ier := 0 }

/-- The data-cache unit after power-on reset. -/
def DBox.reset : DBox :=
  { dtbTag := 0, dtbPcr := 0, dsStat := 0, dsCtl := 0, dcCtl := 0x945600000000000F, dcStat := 0, daMatch := 0,
    daMask := 0x001FFFFFFFFFFFFF, daMatchMode := 0x001FFFFFFFFFFFFF, dva := 0, dvMatch := 0,
    dvMask := 0xFFFFFFFFFFFFFFFF }

/-- The second-level-cache unit after reset. -/
def SBox.reset : SBox :=
  { scCtl := 0x1000FF, scStat := 0, intReq := 0, cpCtl := 0x1C, mergeOvtime := 0x100 }

/-- The integer unit after power-on reset. -/
def EBox.reset : EBox :=
  { iva := 0, tc := 0, tcCtl := 0, icr := 0, cidHi := 0, idaMatch := 0, idaMask := 0x001FFFFFFFFFFFFF, tid := 0,
    softcsr := Vector.replicate 48 0 }

/-- The named I/O registers after reset; CHIP_CORE[15:8] is the SW1621's 0x31 (R681; log 41). -/
def IorRegs.reset : IorRegs :=
  { inten := 0, iintMis := 0, siFaultStat := 0, intlos := 0, mtInt := 0, cpmCoreSleep := 0, cpmProbeOk := 0,
    sleepDone := 0, coreOnline := 0, initCtl := 0, chipCore := 0x3100, mailQueue := [], mailFull := 0 }

/-- The machine right after power-on reset: HM, at 0x1000 (R29, R730). No merge window is open and every other core is
connected: the spec gives the wait counter and the connections no reset state, DESIGN CHOICE (R52, R662; log 28, log 41). -/
def State.reset : State :=
  { pc := 0x1000, gpr := Vector.replicate 32 0, sr := Vector.replicate 10 0, vr := Vector.replicate 32 0, fpcr := 0,
    lock := { valid := false, flag := false, success := false, addr := 0, size := 4, kept := false },
    coreState := .running, mem := [], ibox := .reset, dbox := .reset, sbox := .reset, ebox := .reset,
    itb := [], dtb := [], icache := [], timerCount := 0, hserrTime := 0, sleepBreak := 0, ior := .reset,
    plat := .default, draws := 0, inputs := [], outputs := [], ir := 0, pair := 0, lastExc := none,
    codeHist := [], ncRecent := [], early := [], earlyBroken := false, unflushed := [], dcDirty := [], disconnected := 0,
    mergeWait := none, kinds := Vector.replicate 32 .unwritten, idaMatchWriter := none, idaMaskWriter := none, retJump := none,
    timerWild := false, lateErrors := [], dcErrors := [], armed := none, armedFetch := none }

end Sys2Proof.Machine
end

