-- ==== Sys2Proof/Machine/Ops.lean ====
section
/-! DEFINITION. The named operations over registers and memory bytes, free values, and taking an exception: written
once and called by every meaning. -/

namespace Sys2Proof.Machine

/-- What a meaning answers. -/
abbrev Result := Host.Outcome State Fault Refusal

/-! ## Bits -/

/-- A one-bit field of a word. -/
def flag (b : Bool) (i : Nat) : Word := if b then (1 : Word) <<< i else 0

/-- `len` bits of `w` from bit `lo` replaced by the low bits of `v`. -/
def setField (w : Word) (lo len : Nat) (v : Word) : Word :=
  let m : Word := (BitVec.allOnes 64 >>> (64 - len)) <<< lo
  (w &&& ~~~m) ||| ((v <<< lo) &&& m)

/-- The address of pc without the mode bits. -/
def clearLow2 (w : Word) : Word := w &&& ~~~(3 : Word)

/-- Bits [63:53] made copies of bit 52 (R88). -/
def sext53 (w : Word) : Word := (w.extractLsb' 0 53).signExtend 64

/-- Bits [63:53] are not the sign extension of bit 52 (R235, R236). -/
def badSext (w : Word) : Bool := sext53 w != w

/-! ## Free values (log 9) -/

/-- The free value drawn at this point. -/
def State.free (s : State) : BitVec 256 := Config.freeBits s.draws

/-- The state after a free value has been drawn. -/
def State.drawn (s : State) : State := { s with draws := s.draws + 1 }

/-! ## Mode -/

/-- The mode of two mode bits (R26). -/
def modeOf (b : BitVec 2) : Mode :=
  match b.toNat with
  | 0 => .hm
  | 1 => .vm
  | 2 => .km
  | _ => .um

/-- The two mode bits, pc[1:0]. -/
def State.modeBits (s : State) : BitVec 2 := s.pc.extractLsb' 0 2

/-- The processor mode (R26). -/
def State.mode (s : State) : Mode := modeOf s.modeBits

/-- The next instruction in sequence (R27); the mode bits stay. -/
def State.advance (s : State) : State := { s with pc := s.pc + 4 }

/-! ## Integer registers (R20, R21, R24) -/

/-- The slot of SR1, SR2, SR4 to SR7, SR20 to SR23. -/
def srSlot (r : Reg) : Option (Fin 10) :=
  match r.toNat with
  | 1 => some 0
  | 2 => some 1
  | 4 => some 2
  | 5 => some 3
  | 6 => some 4
  | 7 => some 5
  | 20 => some 6
  | 21 => some 7
  | 22 => some 8
  | 23 => some 9
  | _ => none

/-- The system registers are named: HM with IS_CTL[SRE] = 1 (R24). -/
def State.srActive (s : State) : Bool := s.mode == .hm && s.ibox.isCtl.getLsbD 0

/-- The system register a number names now, if it names one. -/
def State.srOf (s : State) (r : Reg) : Option (Fin 10) := if s.srActive then srSlot r else none

/-- Read an integer register; R31 reads zero (R21; log 11). -/
def State.readReg (s : State) (r : Reg) : Word :=
  if r = 31 then 0 else
    match s.srOf r with
    | some k => s.sr[k]
    | none => s.gpr[r.toNat]'r.isLt

/-- Write an integer register; a write of R31 is discarded (R21; log 11). -/
def State.writeReg (s : State) (r : Reg) (v : Word) : State :=
  if r = 31 then s else
    match s.srOf r with
    | some k => { s with sr := s.sr.set k v }
    | none => { s with gpr := s.gpr.set r.toNat v r.isLt }

/-! ## Floating-point and vector registers (R30) -/

/-- Element `i` (64 bits) of a vector. -/
def elem (v : Vec) (i : Nat) : Word := v.extractLsb' (64 * i) 64

/-- Read all 256 bits of a vector register; V31 reads zero (log 11). -/
def State.readV (s : State) (r : Reg) : Vec := if r = 31 then 0 else s.vr[r.toNat]'r.isLt

/-- Write all 256 bits of a vector register with data of kind `k`. -/
def State.writeV (s : State) (r : Reg) (v : Vec) (k : DataKind) : State :=
  if r = 31 then s
  else { s with vr := s.vr.set r.toNat v r.isLt, kinds := s.kinds.set r.toNat k r.isLt }

/-- Read a floating-point register, the low 64 bits. -/
def State.readF (s : State) (r : Reg) : Word := (s.readV r).extractLsb' 0 64

/-- Write a floating-point register by a scalar instruction: bits [255:64] become free (R30, U4). -/
def State.writeF (s : State) (r : Reg) (v : Word) (k : DataKind) : State :=
  if r = 31 then s else (s.writeV r (s.free.extractLsb' 0 192 ++ v) k).drawn

/-! ## Data types of the F and V registers (R30, U16; log 59) -/

/-- Data of kind `k` suit an instruction that works on kind `u`; `u = .image` moves 64-bit parts unchanged, which
single-format data do not bear (R405, R753). -/
def DataKind.suits (k u : DataKind) : Bool :=
  match k with
  | .unwritten => true
  | .image => u != .single
  | .single => u == .single
  | .double => u == .double || u == .image
  | .integer => u == .integer || u == .image
  | .mixed => false

/-- The kind of a register that takes elements of both kinds. -/
def DataKind.join (a b : DataKind) : DataKind :=
  if a = b then a
  else match a, b with
    | .unwritten, k | k, .unwritten => k
    | .image, .double | .double, .image => .double
    | .image, .integer | .integer, .image => .integer
    | _, _ => .mixed

/-- What kind of data a register holds; register 31 suits every use. -/
def State.kindOf (s : State) (r : Reg) : DataKind := if r = 31 then .unwritten else s.kinds[r.toNat]'r.isLt

/-- A register's data suit an instruction that works on kind `u`. -/
def State.suits (s : State) (r : Reg) (u : DataKind) : Bool := (s.kindOf r).suits u

/-- What an instruction that works on kind `u` gets from a vector register: its content, or any value where the data do
not suit (U16). -/
def State.useV (s : State) (r : Reg) (u : DataKind) : Vec × State :=
  if s.suits r u then (s.readV r, s) else (s.free, s.drawn)

/-- The same for a floating-point register. -/
def State.useF (s : State) (r : Reg) (u : DataKind) : Word × State :=
  if s.suits r u then (s.readF r, s) else (elem s.free 0, s.drawn)

/-- The vector of four elements, the first lowest. -/
def vec4 (e0 e1 e2 e3 : Word) : Vec := e3 ++ e2 ++ e1 ++ e0

/-! ## Memory bytes (R213, R215) -/

/-- One byte of memory; an unlisted byte reads 0 (log 4). -/
def memRead : List Host.Cell → Nat → Byte
  | [], _ => 0
  | (k, v) :: rest, a => if a = k then v else memRead rest a

/-- Write one byte, keeping the canonical form: addresses strictly rising, no zero byte listed. -/
def memWrite : List Host.Cell → Nat → Byte → List Host.Cell
  | [], a, v => if v = 0 then [] else [(a, v)]
  | (k, x) :: rest, a, v =>
    if a < k then (if v = 0 then (k, x) :: rest else (a, v) :: (k, x) :: rest)
    else if a = k then (if v = 0 then rest else (a, v) :: rest)
    else (k, x) :: memWrite rest a v

/-- The canonical form: addresses strictly rising from `lo`, below 2^46, no listed byte zero. -/
def Memory.wfFrom : Nat → List Host.Cell → Bool
  | _, [] => true
  | lo, (k, v) :: rest => decide (lo ≤ k) && decide (k < 2 ^ 46) && (v != 0) && Memory.wfFrom (k + 1) rest

/-- The canonical form of memory. -/
def Memory.wf (m : List Host.Cell) : Bool := Memory.wfFrom 0 m

/-- `n` bytes from `a`, the byte at `a` lowest (R215; log 10). -/
def readBytes (m : List Host.Cell) (a : Nat) : Nat → Vec
  | 0 => 0
  | n + 1 => readBytes m a n ||| ((memRead m (a + n)).setWidth 256 <<< (8 * n))

/-- Byte `i` of a value. -/
def byteOf (v : Vec) (i : Nat) : Byte := v.extractLsb' (8 * i) 8

/-- The low `n` bytes of a value. -/
def lowBytes (v : Vec) (n : Nat) : Vec := v &&& (BitVec.allOnes 256 >>> (256 - 8 * n))

/-- Store the low `n` bytes of `v` at `a` (R215; log 10). -/
def writeBytes (m : List Host.Cell) (a : Nat) : Nat → Vec → List Host.Cell
  | 0, _ => m
  | n + 1, v => memWrite (writeBytes m a n v) (a + n) (byteOf v n)

/-- The location PA[45:0] of a physical address (R213). -/
def loc (pa : PAddr) : Nat := (pa.extractLsb' 0 46).toNat

/-- A list of bytes written one after the other, those below address `size` only. -/
def writeCells (m : List Host.Cell) (size : Nat) : List Host.Cell → List Host.Cell
  | [] => m
  | (a, v) :: rest => writeCells (if a < size then memWrite m a v else m) size rest

/-- The bytes at the listed addresses lost: each holds a free value, the n-th drawn for it (log 45). -/
def loseBytes (m : List Host.Cell) (draws : Nat) : List Nat → List Host.Cell
  | [] => m
  | a :: rest => loseBytes (if a < 2 ^ 46 then memWrite m a ((Config.freeBits draws).extractLsb' 0 8) else m) (draws + 1) rest

/-- The value whose byte `i` is `f i`, for the low `n` bytes. -/
def packBytes (f : Nat → Byte) : Nat → Vec
  | 0 => 0
  | n + 1 => packBytes f n ||| ((f n).setWidth 256 <<< (8 * n))

/-! ### Overwritten bytes -/

/-- `n` bytes of `v` in a region that starts at `b`, laid over byte `a` with value `x`. -/
def overlay (b n : Nat) (v : Vec) (a : Nat) (x : Byte) : Byte := if b ≤ a ∧ a < b + n then byteOf v (a - b) else x

/-- The store wrote some of `n` bytes from `a`. -/
def Overwrite.overlaps (o : Overwrite) (a n : Nat) : Bool := decide (o.addr < a + n) && decide (a < o.addr + o.size)

/-- Byte `a`, now `b`, before the store. -/
def Overwrite.before (o : Overwrite) (a : Nat) (b : Byte) : Byte := overlay o.addr o.size o.old a b

/-- Byte `a` of memory before all the listed stores, the latest first. -/
def beforeAll (m : List Host.Cell) (os : List Overwrite) (a : Nat) : Byte :=
  os.foldl (fun b o => o.before a b) (memRead m a)

/-- The listed stores, the latest first, that may still be without effect once those that meet `n` bytes from `a` have
taken effect: no store takes effect before an earlier one that it overlaps. `gone` are later ones that have. -/
def pendingAfter (a n : Nat) : List Overwrite → List Overwrite → List Overwrite
  | _, [] => []
  | gone, o :: os =>
    if o.overlaps a n || gone.any fun g => g.overlaps o.addr o.size then pendingAfter a n (o :: gone) os
    else o :: pendingAfter a n gone os

/-- The listed stores, the latest first, that have taken no effect yet, a free bit for each, under the same rule. -/
def pendingDrawn (draws : Nat) : List Overwrite → List Overwrite → List Overwrite
  | _, [] => []
  | gone, o :: os =>
    if (Config.freeBits draws).getLsbD 0 && !gone.any (fun g => g.overlaps o.addr o.size) then
      o :: pendingDrawn (draws + 1) gone os
    else pendingDrawn (draws + 1) (o :: gone) os

/-! ### Memory as instruction fetches see it (R225, R247; log 27) -/

/-- Memory without the stores that have taken effect before their place in the program: a fetch sees no store that comes
after it (R247; D15). -/
def State.codeMem (s : State) : List Host.Cell := s.early.foldl (fun m p => writeBytes m p.addr p.size p.under) s.mem

/-- A store that has taken effect early, over memory that is `m` for fetches. -/
def EarlyStore.over (p : EarlyStore) (m : List Host.Cell) : EarlyDone :=
  { toEarlyStore := p, under := readBytes m p.addr p.size }

/-- `n` bytes from `a` are damaged: free values stand there from here on, for fetches too (R313, R319, R321, R326; log
44). -/
def State.damage (s : State) (a n : Nat) : State :=
  { s with
    mem := loseBytes s.mem s.draws ((List.range n).map fun i => a + i)
    early := s.early.map fun p => p.over (loseBytes s.codeMem s.draws ((List.range n).map fun i => a + i))
    ncRecent := pendingAfter a n [] s.ncRecent
    draws := s.draws + n }

/-- The bytes of line PA[45:7] are damaged. -/
def State.damageLine (s : State) (line : Nat) : State := s.damage (128 * line) 128

/-! ## Sending and interrupt requests -/

/-- Something leaves the core. -/
def State.send (s : State) (e : OutEvent) : State := { s with outputs := s.outputs ++ [e] }

/-- Interrupt number n becomes pending, whatever IER holds (R652). -/
def State.setPending (s : State) (n : BitVec 8) : State :=
  { s with ibox := { s.ibox with pending := s.ibox.pending ||| ((1 : BitVec 256) <<< n.toNat) } }

/-- SLEEP_VEC (R95). -/
def State.sleepVec (s : State) : BitVec 8 := s.ibox.intVec.extractLsb' 0 8
/-- MCHK_VEC (R95). -/
def State.mchkVec (s : State) : BitVec 8 := s.ibox.intVec.extractLsb' 8 8
/-- CR_VEC (R95). -/
def State.crVec (s : State) : BitVec 8 := s.ibox.intVec.extractLsb' 16 8
/-- PC1_VEC (R95). -/
def State.pc1Vec (s : State) : BitVec 8 := s.ibox.intVec.extractLsb' 24 8
/-- PC0_VEC (R95). -/
def State.pc0Vec (s : State) : BitVec 8 := s.ibox.intVec.extractLsb' 32 8
/-- TIMER_VEC (R95). -/
def State.timerVec (s : State) : BitVec 8 := s.ibox.intVec.extractLsb' 40 8

/-! ## The instruction being executed -/

/-- Its Ra field, which EXC_SUM[REG] records (R100). -/
def State.irRa (s : State) : BitVec 5 := fieldRa s.ir

/-- Its opcode, which DS_STAT[OPCODE] records (R149). -/
def State.irOp (s : State) : BitVec 6 := fieldOp s.ir

/-! ## Taking an exception (R590 to R592) -/

/-- The offset of a privileged entry from PRI_BASE, by the table of R591. Entry C4 of spec/90_conflicts.md, which is about the
names of the ITB misses, mentions 0xA00 and 0xA80 as their offsets; the table has 0x980 and 0xA00, and 0xA80 is FEN's: DEDUCED
(log 72). -/
def Exc.offset : Exc → BitVec 16
  | .dtbmDouble => 0x800
  | .dtbmSingle0 => 0x880
  | .dtbmSingle1 => 0x900
  | .itbMiss0 => 0x980
  | .itbMiss1 => 0xA00
  | .fen => 0xA80
  | .unalign => 0xB00
  | .arith => 0xB80
  | .dfault => 0xC80
  | .iacv => 0xD00
  | .opcdec => 0xD80
  | .interrupt0 => 0xE00
  | .interrupt1 => 0xE80
  | .sleep => 0xF00
  | .mchk => 0xF80

/-- `{0[63:48], PRI_BASE[47:16], offset}`: a physical address, mode bits 00 (R592). -/
def entryAddr (priBase : Word) (off : BitVec 16) : Word := (0 : BitVec 16) ++ priBase.extractLsb' 16 32 ++ off

/-- Taking an exception or an interrupt: EXC_PC, the lock bits, pc and with it the mode (R590; D24). -/
def State.enter (s : State) (e : Exc) (recordPc : Word) : State :=
  { s with
    ibox := { s.ibox with excPc := sext53 recordPc }
    lock := { s.lock with valid := false, flag := false }
    pc := entryAddr s.ibox.priBase e.offset
    lastExc := some e }

/-- Returning from the privileged program to `t`, the value of R[ra]: address and mode both come from `t`, the lock bits
are cleared; where the return stood is kept for a bad target (spec/40_privileged.md R386; D18, D24; log 22). -/
def State.priReturn (s : State) (ra : Reg) (t : Word) : State :=
  { s with pc := t, lock := { s.lock with valid := false, flag := false }, retJump := some (s.pc, ra) }

/-! ## EXC_SUM (R99, R100) -/

/-- EXC_SUM rewritten with the given status bits and REG (D9; log 19). -/
def State.setExcSum (s : State) (bits : Word) (reg : BitVec 5) : State :=
  { s with ibox := { s.ibox with excSum := bits ||| (reg.setWidth 64 <<< 8) } }

/-- EXC_SUM rewritten with the given status bits, REG free (U17; log 19). -/
def State.setExcSumFree (s : State) (bits : Word) : State :=
  (s.setExcSum bits (s.free.extractLsb' 0 5)).drawn

/-- Entering an interrupt: EXC_PC holds the instruction that would run next, or the aborted one of a precise machine
check; EXC_SUM[REG] is free, the rest stays (R641, U17; log 19); a halted core runs again (R410); the breakpoint of a
sleep interrupt is kept for the wake-up (R720). -/
def State.enterInterrupt (s : State) (e : Exc) : State :=
  let t : State := { s.drawn with
    ibox := { s.ibox with excSum := setField s.ibox.excSum 8 5 (s.free.extractLsb' 0 64) }
    coreState := .running
    retJump := none
    sleepBreak := if e = .sleep then sext53 s.pc else s.sleepBreak }
  t.enter e s.pc

/-- IGL_INST records the instruction word (R120). -/
def State.setIglInst (s : State) (lockIgl : Bool) : State :=
  { s with ibox := { s.ibox with iglInst := flag lockIgl 32 ||| s.ir.setWidth 64 } }

/-! ## Faults found at decode and at a transfer's target (R606, R617 to R620) -/

/-- OPCDEC (R620). -/
def State.raiseOpcdec (s : State) (lockIgl : Bool) : State :=
  ((s.setExcSumFree 0).setIglInst lockIgl).enter .opcdec s.pc

/-- FEN (R606); LOCK_IGL 0. -/
def State.raiseFen (s : State) : State := ((s.setExcSumFree 0).setIglInst false).enter .fen s.pc

/-- IACV by the instruction-address match (R617 cause 2, R700). LOCK_IGL 0, DESIGN CHOICE (log 61). -/
def State.raiseIaMatch (s : State) : State :=
  ((s.setExcSumFree (flag true 33)).setIglInst false).enter .iacv s.pc

/-- IACV by a jump target's sign extension: IVA holds the target (R618). -/
def State.raiseBadIva (s : State) (t : Word) : State :=
  ({ s.setExcSum (flag true 13) s.irRa with ebox := { s.ebox with iva := t } }).enter .iacv s.pc

/-- IACV by the target match: IVA holds the target (R619). -/
def State.raiseIdaMatch (s : State) (t : Word) : State :=
  ({ s.setExcSum (flag true 34) s.irRa with ebox := { s.ebox with iva := t } }).enter .iacv s.pc

/-- ARITH, after the instruction has completed: `s` holds its results, `pc` is its address (R621). -/
def State.raiseArith (s : State) (pc : Word) (bits : Word) (reg : BitVec 5) : State :=
  (s.setExcSum bits reg).enter .arith pc

/-! ## The checks made at decode -/

/-- The instruction-address match (spec/61_interrupts_platform.md R700). -/
def State.iaMatch (s : State) : Bool :=
  let x : Word := (0 : BitVec 1) ++ s.ibox.vpcr.extractLsb' 44 2 ++ s.ibox.upcr.extractLsb' 39 8
    ++ s.pc.extractLsb' 0 53
  let m : Word := s.ibox.iaMask &&& 0x7FFFFFFFFFFFFFFF
  s.ibox.iaMatch.getLsbD 63 && ((x ^^^ s.ibox.iaMatch) &&& m == 0)

/-- Which unit an instruction needs (R606). -/
inductive Pipe where
  /-- Neither floating-point nor SIMD. -/
  | int
  /-- Floating-point. -/
  | fp
  /-- SIMD. -/
  | simd
  deriving DecidableEq, Repr

/-- The unit is disabled or its clock is off (R606). -/
def State.fen (s : State) (p : Pipe) : Bool :=
  let off := !(s.ibox.upcr.getLsbD 1 && s.ibox.upcr.getLsbD 0)
  match p with
  | .int => false
  | .fp => off
  | .simd => off || !s.ibox.upcr.getLsbD 2

/-- The checks of the decode stage in their order, then the instruction: OPCDEC (`illegal`, with its LOCK_IGL), the
address match, FEN (R595 item 2). -/
def State.atDecode (s : State) (illegal : Option Bool) (p : Pipe) (run : Result) : Result :=
  match illegal with
  | some lockIgl => .next (s.raiseOpcdec lockIgl)
  | none =>
    if s.iaMatch then .next s.raiseIaMatch
    else if s.fen p then .next s.raiseFen
    else run

/-- A privileged instruction outside HM is illegal (spec/40_privileged.md R380). -/
def State.privileged (s : State) : Option Bool := if s.mode = .hm then none else some false

/-- A null instruction: only the address match applies (R358, R406; log 14). -/
def State.execNull (s : State) : Result := s.atDecode none .int (.next s.advance)

end Sys2Proof.Machine
end

