-- ==== Sys2Proof/Machine/Translate.lean ====
section
/-! DEFINITION. The translation buffers and the lines of the instruction cache: match, fill, flush, lookup
(spec/21_translation.md). -/

namespace Sys2Proof.Machine

/-- How many page-number bits a granularity leaves out of the comparison (R275, R289). -/
def ghShift (gh : BitVec 2) : Nat := 5 * gh.toNat

/-- VA[52:13]. -/
def vpage (va : Word) : BitVec 40 := va.extractLsb' 13 40

/-- The tag and a page number agree on the bits the granularity compares (R87, R275). -/
def pageMatch (gh : BitVec 2) (tag page : BitVec 40) : Bool :=
  tag >>> ghShift gh == page >>> ghShift gh

/-- UPCR[UPN]. -/
def State.upn (s : State) : BitVec 8 := s.ibox.upcr.extractLsb' 39 8
/-- VPCR[VPN]. -/
def State.vpn (s : State) : BitVec 2 := s.ibox.vpcr.extractLsb' 44 2
/-- DTB_PCR[VPN]. -/
def State.dtbVpn (s : State) : BitVec 2 := s.dbox.dtbPcr.extractLsb' 62 2
/-- DTB_PCR[UPN]. -/
def State.dtbUpn (s : State) : BitVec 8 := s.dbox.dtbPcr.extractLsb' 54 8
/-- DTB_PCR[PM]. -/
def State.dtbPm (s : State) : BitVec 2 := s.dbox.dtbPcr.extractLsb' 0 2

/-! ## ITB -/

/-- An entry matches an address of the current virtual machine and process (R275 steps 2 to 4). -/
def ItbEntry.hits (e : ItbEntry) (vpn : BitVec 2) (upn : BitVec 8) (va : Word) : Bool :=
  pageMatch e.gh e.tag (vpage va) && e.vpn == vpn && (e.ks || e.upn == upn)

/-- Two entries overlap: same virtual machine, a context in common, intersecting pages (R263; log 29). Naturally
aligned blocks intersect when their numbers agree at the coarser granularity. -/
def ItbEntry.overlaps (e f : ItbEntry) : Bool :=
  e.vpn == f.vpn && (e.ks || f.ks || e.upn == f.upn)
    && (pageMatch e.gh e.tag f.tag || pageMatch f.gh e.tag f.tag)

/-- The entry a write of ITB_PTE fills (R82). -/
def State.itbNew (s : State) (d : Word) : ItbEntry :=
  { tag := vpage s.ibox.itbTag, pfn := d.extractLsb' 13 34, gh := d.extractLsb' 5 2, uee := d.getLsbD 11,
    kee := d.getLsbD 10, vee := d.getLsbD 9, vpn := s.vpn, upn := s.upn, ks := d.getLsbD 4 }

/-- Fill: overlapping entries go; if none goes and all 32 are in use, a drawn one is replaced (R263, R290). -/
def State.itbFill (s : State) (d : Word) : State :=
  let e := s.itbNew d
  let kept := s.itb.filter fun f => !e.overlaps f
  if kept.length < 32 then { s with itb := e :: kept }
  else { s.drawn with itb := e :: kept.eraseIdx (s.free.toNat % 32) }

/-- ITB_IS: the entries of one virtual page (R87). -/
def ItbEntry.invalidatedBy (e : ItbEntry) (vpn : BitVec 2) (upn : BitVec 8) (d : Word) : Bool := e.hits vpn upn d

/-- The page frame with the offset bits of the granularity taken from the address (R275 step 6). -/
def joinPage (frame : BitVec 35) (gh : BitVec 2) (va : Word) : PAddr :=
  let low : PAddr := (BitVec.allOnes 48) >>> (35 - ghShift gh)
  ((frame ++ (0 : BitVec 13)) &&& ~~~low) ||| (va.setWidth 48 &&& low)

/-- What a lookup of the ITB answers. -/
inductive ItbResult where
  | hit (e : ItbEntry) (pa : PAddr)
  | noExecute
  | miss
  deriving DecidableEq, Repr

/-- The execute enable of a mode (R275 step 5); HM has none. -/
def ItbEntry.enables (e : ItbEntry) : Mode → Bool
  | .hm => true
  | .vm => e.vee
  | .km => e.kee
  | .um => e.uee

/-- The ITB lookup of a translated fetch (R275 steps 2 to 7). PA[47] is 0 (R262). -/
def State.itbLookup (s : State) : ItbResult :=
  match s.itb.find? fun e => e.hits s.vpn s.upn s.pc with
  | none => .miss
  | some e => if e.enables s.mode then .hit e (joinPage ((0 : BitVec 1) ++ e.pfn) e.gh (clearLow2 s.pc)) else .noExecute

/-! ## DTB -/

/-- An entry matches an address of the current virtual machine and process (R285 steps 2 to 4). -/
def DtbEntry.hits (e : DtbEntry) (vpn : BitVec 2) (upn : BitVec 8) (va : Word) : Bool :=
  pageMatch e.gh e.tag (vpage va) && e.vpn == vpn && (e.ks || e.upn == upn)

/-- The entry a write of DTB_PTE fills (R142). -/
def State.dtbNew (s : State) (d : Word) : DtbEntry :=
  { tag := vpage s.dbox.dtbTag, pa := d.extractLsb' 24 35, gh := d.extractLsb' 5 2,
    ure := d.getLsbD 11, kre := d.getLsbD 10, vre := d.getLsbD 9, hre := d.getLsbD 8,
    uwe := d.getLsbD 15, kwe := d.getLsbD 14, vwe := d.getLsbD 13, hwe := d.getLsbD 12,
    faultOnRead := d.getLsbD 1, faultOnWrite := d.getLsbD 2, vpn := s.dtbVpn, upn := s.dtbUpn, ks := d.getLsbD 4 }

/-- Fill: once the first level's 64 entries are in use any entry may be lost with a fill, and 608 is the most
(R271, R290; log 30). -/
def State.dtbFill (s : State) (d : Word) : State :=
  let e := s.dtbNew d
  if s.dtb.length < 64 then { s with dtb := e :: s.dtb }
  else
    let k := (s.free.extractLsb' 1 255).toNat % s.dtb.length
    if s.dtb.length < 608 ∧ s.free.getLsbD 0 = false then { s.drawn with dtb := e :: s.dtb }
    else { s.drawn with dtb := e :: s.dtb.eraseIdx k }

/-- The read enable of a mode (R286). -/
def DtbEntry.readEnable (e : DtbEntry) : Mode → Bool
  | .hm => e.hre
  | .vm => e.vre
  | .km => e.kre
  | .um => e.ure

/-- The write enable of a mode (R286). -/
def DtbEntry.writeEnable (e : DtbEntry) : Mode → Bool
  | .hm => e.hwe
  | .vm => e.vwe
  | .km => e.kwe
  | .um => e.uwe

/-- What a data translation answers. -/
inductive DtbResult where
  | pa (p : PAddr)
  /-- ACV0, FOR and FOW of the one entry that hits (R286, R612). -/
  | denied (acv0 faultOnRead faultOnWrite : Bool)
  | miss
  /-- More than one entry hits (R273, U9). -/
  | multiple
  deriving DecidableEq, Repr

/-- The DTB lookup (R285 steps 2 to 7) with the permissions of mode `pm` (R286). It meets no parity error: what the hardware
does to the indexed ways after one in a small page with DC_CTL[L2DTB_PERR_EN] = 1 is cut off in R151; the model has no such
error and lets no entry go for it, DESIGN CHOICE (log 30). -/
def State.dtbLookup (s : State) (pm : Mode) (reads writes : Bool) (va : Word) : DtbResult :=
  match s.dtb.filter fun e => e.hits s.dtbVpn s.dtbUpn va with
  | [] => .miss
  | [e] =>
    let acv0 := (reads && !e.readEnable pm) || (writes && !e.writeEnable pm)
    let fr := reads && e.faultOnRead
    let fw := writes && e.faultOnWrite
    if acv0 || fr || fw then .denied acv0 fr fw else .pa (joinPage e.pa e.gh va)
  | _ => .multiple

/-! ## The instruction cache -/

/-- PC[12:7]. -/
def icIndex (pc : Word) : BitVec 6 := pc.extractLsb' 7 6

/-- A line of the indexed set hits (R276). -/
def ICacheLine.hits (l : ICacheLine) (s : State) : Bool :=
  l.index == icIndex s.pc &&
    match s.mode with
    | .hm => l.tag.extractLsb' 0 34 == (vpage s.pc).extractLsb' 0 34 && l.pm == 0
    | .vm => l.tag == vpage s.pc && l.vpn == s.vpn && l.pm == 1
    | .km | .um => l.tag == vpage s.pc && l.vpn == s.vpn && (l.ks || l.upn == s.upn) && l.pm == s.modeBits

/-- The four lines of one index leave the instruction cache (R282, R312, R320). -/
def State.icacheFlushIndex (s : State) (i : BitVec 6) : State :=
  { s with icache := s.icache.filter fun l => l.index != i }

/-- A line holds bytes of the `n` from location `a`. -/
def ICacheLine.covers (l : ICacheLine) (a n : Nat) : Bool :=
  !l.line.getLsbD 39 && decide (a < 128 * l.line.toNat + 128) && decide (128 * l.line.toNat < a + n)

/-- Where the hardware keeps the instruction cache coherent (SC_CTL[IC_COH_EN]), a store removes the lines that hold its
bytes (R216, R279). -/
def State.icacheCoherent (s : State) (a n : Nat) : List ICacheLine :=
  if s.sbox.scCtl.getLsbD 20 then s.icache.filter fun l => !l.covers a n else s.icache

/-- A new line enters its set of four ways, replacing a drawn one when they are full (R277, R283). -/
def State.icacheInsert (s : State) (l : ICacheLine) : State :=
  let inSet := s.icache.filter fun m => m.index == l.index
  if inSet.length < 4 then { s with icache := l :: s.icache }
  else
    { s.drawn with
      icache := l :: (s.icache.filter fun m => m.index != l.index) ++ inSet.eraseIdx (s.free.toNat % 4) }

end Sys2Proof.Machine
end

