-- ==== Sys2Proof/Machine/Errors.lean ====
section
/-! DEFINITION. Recording hardware errors and raising the corrected-error and machine-check requests
(spec/22_errors.md). -/

namespace Sys2Proof.Machine

/-- The machine check is pending from here on (R669). -/
def State.mchkRequest (s : State) : State := s.setPending s.mchkVec

/-- The machine-check interrupt would be taken now: outside HM and enabled (R582, R669). -/
def State.mchkEnabled (s : State) : Bool := s.mode != .hm && s.ibox.ier.getLsbD s.mchkVec.toNat

/-- Adding 1 carries out of (or, by the parameter, into) the bit HSERR_TH[SERR_THLD] selects (R119; log 39). With SERR_THLD =
0 R119's parenthesis has the counter overflow on the first counted error, where a carry into bit 0 comes, while a carry leaves
bit 0 only at the second: by default the model takes the second, DESIGN CHOICE (log 39). -/
def State.serrOverflow (s : State) : Bool :=
  let k := (s.ibox.hserrTh.extractLsb' 7 5).toNat
  let n := (s.ibox.hserrCnt.extractLsb' 0 32).toNat
  let bits := if s.plat.hserrCarryInto then k else k + 1
  (n + 1) % 2 ^ bits == 0

/-- One corrected error is counted; on overflow SERR_OF is set, the corrected-error interrupt requested and the
maintenance interface told (R118, R329, R668). It is told whether or not that interrupt is enabled, as R337 item 3 has it;
R329's sentence ties the notice to the enabled interrupt: DESIGN CHOICE (log 39). -/
def State.countCorrected (s : State) : State :=
  let cnt := setField s.ibox.hserrCnt 0 32 (s.ibox.hserrCnt + 1)
  if s.serrOverflow then
    (({ s with ibox := { s.ibox with hserrCnt := cnt ||| flag true 32 } }).setPending s.crVec).send .correctedErrors
  else { s with ibox := { s.ibox with hserrCnt := cnt } }

/-- A bit of IS_STAT is set (R106). -/
def State.setIsStat (s : State) (i : Nat) : State :=
  { s with ibox := { s.ibox with isStat := s.ibox.isStat ||| flag true i } }

/-- A bit of DC_STAT is set (R153). -/
def State.setDcStat (s : State) (i : Nat) : State :=
  { s with dbox := { s.dbox with dcStat := s.dbox.dcStat ||| flag true i } }

/-- A bit of SC_STAT is set (R167). -/
def State.setScStat (s : State) (i : Nat) : State :=
  { s with sbox := { s.sbox with scStat := s.sbox.scStat ||| flag true i } }

/-- The SC_CTL bit that enables the report of an SC_STAT bit (R165, R167). -/
def scEnableBit (i : Nat) : Nat :=
  match i with
  | 30 => 19
  | 7 | 8 | 9 | 24 | 25 | 26 | 27 | 28 | 29 => 13
  | 14 | 15 | 16 | 17 | 18 | 19 | 20 | 21 | 22 | 23 => 18
  | 13 => 17
  | 11 | 12 => 16
  | 10 => 15
  | 6 => 10
  | 2 | 3 | 4 | 5 => 9
  | _ => 8

/-- The reports that need SC_CTL[ACK_CHK_EN] as well: control-error responses to writes (R327). -/
def scNeedsAckCheck (i : Nat) : Bool := i == 24 || i == 26 || i == 28

/-- An SC_STAT bit that counts as a corrected error: ICTAG_PAR, SYSDAT_SERR, DVIC_SERR, DAT_SERR, TAG_SERR (R329). -/
def scCorrected (i : Nat) : Bool := i == 30 || i == 11 || i == 4 || i == 2 || i == 0

/-- The illegal-address responses to writes, reported outside as a software fault (R327). -/
def scSoftwareFault (i : Nat) : Bool := i == 7 || i == 8 || i == 9

/-- The conditions reported to the maintenance interface as hardware faults (R337 item 1). Of the control errors item 1 names
a second-level request or response inconsistent with the internal state; the model reports all ten (bits 14 to 23), so the
errors of SMAF, SVAF and IOWB, of a data-stream request and of an eviction too, and CTL_ERR_RQ1_ACK of an illegal-address
response, which R330 calls a software fault: DESIGN CHOICE (log 71). -/
def scHardwareFault (i : Nat) : Bool :=
  i == 6 || i == 10 || i == 13 || (decide (14 ≤ i) && decide (i ≤ 23))

/-- The multi-bit ECC errors the second-level cache reports outside: TAG_MERR, DAT_MERR, DVIC_MERR, SYSDAT_MERR
(R337 item 4). -/
def scMultiBit (i : Nat) : Bool := i == 1 || i == 3 || i == 5 || i == 12

/-- An error that SC_STAT bit `i` records, under its enable (R323 to R328). SYSDAT_MERR is no machine-check cause of its
own (R338); bit 30 comes with an index (`State.icCopyError`), bit 31 is none. -/
def State.scError (s : State) (i : Nat) : State :=
  if 30 ≤ i then s
  else if !s.sbox.scCtl.getLsbD (scEnableBit i) || (scNeedsAckCheck i && !s.sbox.scCtl.getLsbD 14) then s
  else
    let s1 := s.setScStat i
    let s2 := if scCorrected i then s1.countCorrected else if i = 12 then s1 else s1.mchkRequest
    let s3 := if scMultiBit i then s2.send .multiBitErrors else s2
    let s4 := if scSoftwareFault i then s3.send .softwareFault else s3
    if scHardwareFault i then s4.send .hardwareFault else s4

/-- A parity error in the copy of the instruction-cache tags: ICTAG_PAR, the lines of the index go, and the error is
counted, under SC_CTL[ICTAG_PAR_EN] (R320). -/
def State.icCopyError (s : State) (index : BitVec 6) : State :=
  if s.sbox.scCtl.getLsbD 19 then ((s.setScStat 30).icacheFlushIndex index).countCorrected else s

/-- Wrong parity found in the instruction cache at an index: IS_STAT bit `i`, the four lines of the index go, and the
error is counted (R312). -/
def State.icParityError (s : State) (i : Nat) (index : BitVec 6) : State :=
  ((s.setIsStat i).icacheFlushIndex index).countCorrected

/-! ## Errors in the data cache (R151, R280, R317 to R319; log 67) -/

/-- The line PA[45:7] that holds the error. -/
def CellError.line (e : CellError) : Nat := e.addr / 128

/-- An access to `n` bytes from `a` reads the erroneous datum. -/
def CellError.met (e : CellError) (a n : Nat) : Bool :=
  e.kind != .tag && decide (e.addr < a + n) && decide (a < e.addr + e.size)

/-- Some erroneous datum is read by an access to `n` bytes from `a`. -/
def State.dcBad (s : State) (a n : Nat) : Bool := s.dcErrors.any fun e => e.met a n

/-- An access to location `a` reads a tag of wrong parity: it reads those of all four lines with its bits PA[12:7] (R280,
R317). -/
def State.tagBad (s : State) (a : Nat) : Bool := s.dcErrors.any fun e => e.kind == .tag && e.line % 64 == a / 128 % 64

/-- Line PA[45:7] is clean in the data cache, or no longer there. -/
def State.lineClean (s : State) (line : Nat) : State := { s with dcDirty := s.dcDirty.filter fun l => l != line }

/-- An error leaves the data cache with its line. Wrong tag parity does no harm to the line's bytes (R317). A clean line is
dropped; a dirty one, stored to since it was filled, is checked by the second level: a single-bit error is corrected and
recorded, bytes with more stand in memory damaged, and that is recorded (R167, R318, R319). -/
def State.cellLeaves (s : State) (e : CellError) : State :=
  if e.kind == .tag || !s.dcDirty.contains e.line then s
  else if e.kind == .multi then (s.damage e.addr e.size).scError 5 else s.scError 4

/-- The listed lines leave the data cache, each with its errors. -/
def State.linesLeave (s : State) (gone : List Nat) : State :=
  let out := s.dcErrors.filter fun e => gone.contains e.line
  let t := out.foldl State.cellLeaves { s with dcErrors := s.dcErrors.filter fun e => !gone.contains e.line }
  { t with dcDirty := t.dcDirty.filter fun l => !gone.contains l }

/-- What the next accesses replace in the error's set is counted anew. -/
def CellError.recounted (line : Nat) (e : CellError) : CellError :=
  if e.line % 64 == line % 64 then { e with others := [] } else e

/-- The replacement pointer of the set of line PA[45:7] may have changed, or a way of it may be free: from here on seven
other lines drive a line out, whatever has been accessed before. -/
def State.recounted (s : State) (line : Nat) : State := { s with dcErrors := s.dcErrors.map (CellError.recounted line) }

/-- Line PA[45:7] leaves the data cache by no replacement: by an eviction, a flush, or a request from outside. -/
def State.lineLeaves (s : State) (line : Nat) : State := (s.linesLeave [line]).recounted line

/-- The flush of a line may reach a line whose own tag is wrong: one of the same index PA[15:7] of the second level, whose tag
is used (R317). -/
def CellError.nearFlush (e : CellError) (line : Nat) : Bool := e.kind == .tag && e.line % 512 == line % 512

/-- A line of the error's index has been flushed. -/
def CellError.flushedAt (line : Nat) (e : CellError) : CellError :=
  if e.nearFlush line then { e with flushed := line :: e.flushed.filter fun l => l != line } else e

/-- FLUSHD or an eviction of line PA[45:7]: it leaves the data cache. A line whose tag is wrong goes with one of the eight
flushes that R317 prescribes for its index, one for each way; which flush address reaches which way the spec does not say:
it is drawn, and with the eighth the line has gone, DESIGN CHOICE (log 67). -/
def State.flushLine (s : State) (line : Nat) : State :=
  if s.dcErrors.any fun e => e.nearFlush line then
    let t := { s.drawn with dcErrors := s.dcErrors.map (CellError.flushedAt line) }
    let out := t.dcErrors.filter fun e => e.nearFlush line && (decide (8 ≤ e.flushed.length) || s.free.getLsbD 0)
    (t.linesLeave (line :: out.map CellError.line)).recounted line
  else s.lineLeaves line

/-! ### Replacement: four ways, the line filled first goes first, allocation on reads and writes (R280) -/

/-- The error's line is another one of the same set, that of bits PA[12:7]. -/
def CellError.besides (e : CellError) (line : Nat) : Bool := e.line != line && e.line % 64 == line % 64

/-- A line has been accessed. -/
def CellError.passed (line : Nat) (e : CellError) : CellError :=
  if e.besides line then { e with others := line :: e.others.filter fun l => l != line } else e

/-- The access may have filled its line, and this one may be the one that went for it: another line of the set is accessed,
and not the one accessed last, which is still there. -/
def CellError.mayGo (line : Nat) (e : CellError) : Bool := e.besides line && e.others.head? != some line

/-- A load or store through the data cache of location `a`. If it fills its line, one line of the set goes, drawn: the
contents of the cache are not part of the model. Of seven lines of the set beside this one at most three were there before,
so after accesses to seven with nothing between that changes the replacement pointer the line has gone (R280; log 67). -/
def State.replaceLines (s : State) (a : Nat) : State :=
  let line := a / 128
  let may := s.dcErrors.filter (CellError.mayGo line)
  if may.isEmpty then s
  else
    let gone := (may.map CellError.line)[s.free.toNat % (may.length + 1)]?
    let t := { s.drawn with dcErrors := s.dcErrors.map (CellError.passed line) }
    t.linesLeave ((t.dcErrors.filter fun e => decide (7 ≤ e.others.length)).map CellError.line ++ gone.toList)

/-- A data-fill instruction: it may fill the line of location `a`, for which another line of the set goes, and it changes the
replacement pointer in a way that R280 and R475 leave to the absent manual, so the accesses before it no longer count. -/
def State.fillLine (s : State) (a : Nat) : State :=
  ((s.recounted (a / 128)).replaceLines a).recounted (a / 128)

/-! ### Forced errors (DC_CTL[F_DC_SERR], [F_DC_MERR], [F_DT_PAR]) -/

/-- The errors that the test bits of DC_CTL force; with both ECC bits the error is a multi-bit one (R151; log 67). -/
def State.forcedKinds (s : State) : List CellErrorKind :=
  (if s.dbox.dcCtl.getLsbD 13 then [.multi] else if s.dbox.dcCtl.getLsbD 14 then [.single] else [])
    ++ (if s.dbox.dcCtl.getLsbD 12 then [.tag] else [])

/-- The errors of a kind in `n` bytes from `a`: each aligned eight bytes have an ECC of their own, a line has one tag
parity (R280). -/
def cellErrors (a n : Nat) (k : CellErrorKind) : List CellError :=
  if k == .tag then [{ addr := a / 128 * 128, size := 128, kind := .tag }]
  else (List.range ((a % 8 + n + 7) / 8)).map fun i => { addr := 8 * (a / 8 + i), size := 8, kind := k }

/-- What is written into the data cache at `n` bytes from `a` gets the errors that are forced, in its ECC and in its line's
tag parity. R151 says only that each bit forces its error: that it is at a write and at a fill of the cache, as
IS_CTL[F_BAD_DPAR] is at a fill (R103), is DESIGN CHOICE (log 67). -/
def State.forceErrors (s : State) (a n : Nat) : State :=
  { s with
    dcErrors := ((s.forcedKinds.flatMap (cellErrors a n)).filter fun e =>
      !s.dcErrors.any fun f => f.addr == e.addr && f.kind == e.kind) ++ s.dcErrors }

/-- An access to location `a` may fill its line, drawn, unless an error shows that the line is there; the whole line then
gets the forced errors, and is clean. -/
def State.forceFill (s : State) (a : Nat) : State :=
  if s.forcedKinds.isEmpty || s.dcErrors.any fun e => e.line == a / 128 then s
  else if s.free.getLsbD 0 then (s.drawn.lineClean (a / 128)).forceErrors (a / 128 * 128) 128 else s.drawn

/-! ### Stores -/

/-- A store to `n` bytes from `a` meets an error: of a single bit, it is corrected and counted; of more, covered by the
store, it is overwritten; not covered, it is reported under DC_CTL[DCDAT_ERR_EN], and its bytes are damaged (R319). -/
def State.storeMeets (a n : Nat) (s : State) (e : CellError) : State :=
  if e.kind == .single then s.countCorrected
  else if a ≤ e.addr ∧ e.addr + e.size ≤ a + n then s
  else
    let t := s.damage e.addr e.size
    if s.dbox.dcCtl.getLsbD 9 then ((t.setDcStat 2).mchkRequest).send .multiBitErrors else t

/-- What a store to `n` bytes from `a` through the data cache finds in the old data it reads (R319). -/
def State.storeErrors (s : State) (a n : Nat) : State :=
  if s.dcErrors.isEmpty then s
  else (s.dcErrors.filter fun e => e.met a n).foldl (State.storeMeets a n)
    { s with dcErrors := s.dcErrors.filter fun e => !e.met a n }

/-- SC_STAT bits of errors that cannot be corrected: TAG_MERR, DAT_MERR, DVIC_MERR, SYSDAT_MERR (R319, R323, R324, R326). What
becomes of the line the spec does not say: its bytes are damaged, which for TAG_MERR too is DESIGN CHOICE (log 67). -/
def scDamages (i : Nat) : Bool := i == 1 || i == 3 || i == 5 || i == 12

/-- An ECC error arises in the data cache. What it holds is not part of the model, so the event says whether the line has
been filled anew since it was last stored to; where an error stands in the line already, it has not (R318; log 67). -/
def State.cellError (s : State) (e : CellError) (refilled : Bool) : State :=
  let t := if refilled && !s.dcErrors.any fun f => f.line == e.line then s.lineClean e.line else s
  { t with dcErrors := { e with others := [], flushed := [] } :: t.dcErrors }

/-- A detected hardware error: recorded at once, or armed for the access it will strike. What a location that could not
be corrected holds afterwards the spec says of no error but the bad response's data (R321, R326): free values, DESIGN
CHOICE (R312 to R328, R337; log 44, log 67). -/
def State.detect (s : State) (e : HwError) : State :=
  match e with
  | .icTagParity i => s.icParityError 3 i
  | .icDataParity i => s.icParityError 4 i
  | .icCopyParity i => s.icCopyError i
  | .robError => ((s.setIsStat 2).mchkRequest).send .hardwareFault
  | .csrIssueError => s.send .hardwareFault
  | .fetchMemError l => { s.damageLine l with armedFetch := some e }
  | .fetchAckError => { s with armedFetch := some e }
  | .dataMemError l => { s.damageLine l with armed := some e }
  | .dcDataError c refilled => s.cellError c refilled
  | .dcTagParity l => { s with dcErrors := { addr := 128 * l, size := 128, kind := .tag } :: s.dcErrors }
  | .dataAckError | .ioMemError => { s with armed := some e }
  | .probeError => if s.dbox.dcCtl.getLsbD 8 then (s.setDcStat 1).mchkRequest else s
  | .loadReplay => s
  | .scError b l => if scDamages b.toNat then (s.damageLine l).scError b.toNat else s.scError b.toNat

/-- A write that met an illegal address: its SC_STAT bit will be reported at some later boundary (R331; log 42). -/
def State.lateWriteError (s : State) (bit : BitVec 5) : State := { s with lateErrors := s.lateErrors ++ [bit] }

/-- A waiting write error is reported or goes on waiting, drawn. -/
def State.reportOrWait (s : State) (bit : BitVec 5) : State :=
  if s.free.getLsbD 0 then s.drawn.scError bit.toNat else s.drawn.lateWriteError bit

/-- At a boundary each waiting write error is reported or goes on waiting, drawn for each of them: R331 says only that the
report comes some time later, so any number may come at one boundary, in any order (log 42). -/
def State.reportLate (s : State) : State :=
  if s.lateErrors.isEmpty then s else s.lateErrors.foldl State.reportOrWait { s with lateErrors := [] }

end Sys2Proof.Machine
end

