-- ==== Sys2Proof/Machine/Memory.lean ====
section
/-! DEFINITION. Reading and writing memory space and I/O space at a physical address, with the orders the spec leaves
open (spec/20_memory.md R212 to R219, R225, R247). -/

namespace Sys2Proof.Machine

/-! ## Memory space -/

/-- The bytes `loc .. loc + n - 1` that exist (R213, R332). -/
def State.memExists (s : State) (pa : PAddr) (n : Nat) : Bool := decide (loc pa + n ≤ s.plat.memSize)

/-! ### The order of cacheable and non-cacheable accesses (R225, R460; D4; log 27)

Cacheable accesses, and non-cacheable loads, take effect in program order. A non-cacheable store may take effect later,
until a MEMB or a non-cacheable access to its bytes: `mem` holds the newest bytes, `ncRecent` the parts of stores that may
not have taken effect yet with the bytes beneath them. It may also take effect earlier (`State.early`, `State.foretell`),
before cacheable accesses that precede it in the program. So each of two accesses that R225 does not order may come first.
An instruction fetch is no data access: it never sees a store before its place in the program (`State.codeMem`), and sees
one after it, or not yet, as R247 says.
Each part lies within one aligned eight bytes, so an access within them sees the whole of it or nothing (R249). -/

/-- The parts of a store of `n` bytes at `a`, with the bytes they overwrite. -/
def storeParts (m : List Host.Cell) (a n : Nat) : List Overwrite :=
  (List.range 5).filterMap fun i =>
    let lo := max a (8 * (a / 8 + i))
    let hi := min (a + n) (8 * (a / 8 + i) + 8)
    if lo < hi then some { addr := lo, size := hi - lo, old := readBytes m lo (hi - lo) } else none

/-- Some of `n` bytes from `a` belong to a store that may not have taken effect. -/
def State.floats (s : State) (a n : Nat) : Bool := s.ncRecent.any fun o => o.overlaps a n

/-- Which stores have taken effect by now is drawn; those that have are so for every later access. -/
def State.settle (s : State) : State :=
  { s with ncRecent := pendingDrawn s.draws [] s.ncRecent, draws := s.draws + s.ncRecent.length }

/-- The stores to any of `n` bytes from `a` take effect, and those they had to wait for. -/
def State.settleAt (s : State) (a n : Nat) : State := { s with ncRecent := pendingAfter a n [] s.ncRecent }

/-- `n` bytes from `a` without the stores that have not taken effect. -/
def seenBytes (m : List Host.Cell) (os : List Overwrite) (a n : Nat) : Vec := packBytes (fun i => beforeAll m os (a + i)) n

/-- The bytes memory holds after a store of `v` that takes effect beneath the listed ones. -/
def mergedBytes (m : List Host.Cell) (os : List Overwrite) (a : Nat) (v : Vec) (n : Nat) : Vec :=
  packBytes (fun i => if os.any fun o => o.overlaps (a + i) 1 then memRead m (a + i) else byteOf v i) n

/-- The listed stores, the latest first, with a store of `v` beneath them. -/
def putBeneath (a n : Nat) (v : Vec) : List Overwrite → List Overwrite
  | [] => []
  | o :: os =>
    let old := packBytes (fun i =>
      if os.any fun p => p.overlaps (o.addr + i) 1 then byteOf o.old i
      else overlay a n v (o.addr + i) (byteOf o.old i)) o.size
    { o with old := old } :: putBeneath a n v os

/-- Addresses `a .. a + n - 1` added to a list. -/
def addAddrs (l : List Nat) (a : Nat) : Nat → List Nat
  | 0 => l
  | n + 1 => let r := addAddrs l a n; if r.contains (a + n) then r else (a + n) :: r

/-- The addresses of a list outside `a .. a + n - 1`. -/
def dropAddrs (l : List Nat) (a n : Nat) : List Nat := l.filter fun x => decide (x < a) || decide (a + n ≤ x)

/-! ### Stores that have taken effect early (R225; log 27) -/

/-- An early store wrote some of `n` bytes from `a`. -/
def EarlyStore.overlaps (p : EarlyStore) (a n : Nat) : Bool := decide (p.addr < a + n) && decide (a < p.addr + p.size)

/-- An access that R225 orders before the early stores to any of `n` bytes from `a`: if there are such, they cannot have
been early. -/
def State.orderedBefore (s : State) (a n : Nat) : State :=
  { s with earlyBroken := s.earlyBroken || s.early.any fun p => p.overlaps a n }

/-! ### The merge window (R52, R170, R229 to R231; log 28) -/

/-- A store to non-cacheable or I/O space opens the merge window or enters the open one, unless it may not merge or
MERGE_OVTIME is 0, which close it (R170, R230, R231). -/
def State.mergeStore (s : State) (mergeable : Bool) : State :=
  { s with mergeWait := if mergeable && s.sbox.mergeOvtime != 0 then some (s.mergeWait.getD 0) else none }

/-- The merge window is closed: MEMB, a non-cacheable or an I/O read (R229, R230). -/
def State.closeMerge (s : State) : State := { s with mergeWait := none }

/-! ### Loads and stores -/

/-- Read `n` bytes of memory space. A non-cacheable read sees the latest store, and every later access does so too
(R217); a cacheable one may miss non-cacheable stores since the last MEMB (R225, R251; D4), and gets a free value where it
reads an erroneous datum of the data cache without a fault (R318; log 67). It may fill its line, where errors are forced
(R151). -/
def State.memLoad (s : State) (pa : PAddr) (n : Nat) (nc : Bool) : Vec × State :=
  let a := loc pa
  if nc then
    let t := ((s.lineLeaves (a / 128)).closeMerge.settleAt a n).orderedBefore a n
    (readBytes t.mem a n, t)
  else
    let t := s.replaceLines a
    if t.dcBad a n then (lowBytes t.free n, t.drawn.forceFill a)
    else if t.floats a n then (seenBytes t.settle.mem t.settle.ncRecent a n, t.settle.forceFill a)
    else (readBytes t.mem a n, t.forceFill a)

/-- The bytes `old` from `a` on, where `now` stands there, for fetches: nothing if they are the same (R247; log 26). -/
def oldBytes (a n : Nat) (old now : Vec) : List OldStore :=
  if old = now then [] else [{ addr := a, size := n, old := old, stage := .stored }]

/-- `n` bytes of `v` stand in memory from `a` on, for fetches too, which may still see what they overwrote (R247, R279). -/
def State.putBytes (s : State) (a n : Nat) (v : Vec) : State :=
  { s with
    mem := writeBytes s.mem a n v
    codeHist := oldBytes a n (readBytes s.codeMem a n) (lowBytes v n) ++ s.codeHist
    early := s.early.map fun p => p.over (writeBytes s.codeMem a n v)
    icache := s.icacheCoherent a n }

/-- A store of the low `n` bytes of `v` beneath stores that have not taken effect; a fetch may see it all the same
(R247). -/
def State.putUnder (s : State) (a n : Nat) (v : Vec) : State :=
  let t := { s.putBytes a n v with
    mem := writeBytes s.mem a n (mergedBytes s.mem s.ncRecent a v n), ncRecent := putBeneath a n v s.ncRecent }
  { t with codeHist := oldBytes a n (lowBytes v n) (readBytes t.codeMem a n) ++ t.codeHist }

/-- A store of the low `n` bytes of `v` that takes effect now, beneath the stores that have not. -/
def State.putNow (s : State) (a n : Nat) (v : Vec) : State :=
  if s.floats a n then s.putUnder a n v else s.putBytes a n v

/-- The same after a draw of the stores that have taken effect. -/
def State.putDrawn (s : State) (a n : Nat) (v : Vec) : State :=
  if s.floats a n then s.settle.putNow a n v else s.putNow a n v

/-- The bytes stored through the data cache stand there only, in a dirty line. -/
def State.cached (s : State) (a n : Nat) : State :=
  { s with unflushed := addAddrs s.unflushed a n, dcDirty := s.dcDirty.insert (a / 128) }

/-- The bytes stored past the data cache stand in memory. -/
def State.uncached (s : State) (a n : Nat) : State := { s with unflushed := dropAddrs s.unflushed a n }

/-- A cacheable store of the low `n` bytes of `v`: it may fill its line, reads the old data, and writes (R280, R319). -/
def State.cachedStore (s : State) (a n : Nat) (v : Vec) : State :=
  (((((s.replaceLines a).forceFill a).storeErrors a n).putDrawn a n v).cached a n).forceErrors a n

/-- What a non-cacheable store of the low `n` bytes of `v` does to memory: it may still be without effect for a while. -/
def State.putWaiting (s : State) (a n : Nat) (v : Vec) : State :=
  let t := s.lineLeaves (a / 128)
  { t.putBytes a n v with
    ncRecent := storeParts t.mem a n ++ t.ncRecent
    unflushed := dropAddrs t.unflushed a n }

/-- A store takes effect before its place in the program: loads may see it, fetches do not (R225, R247). -/
def State.putEarly (s : State) (p : EarlyStore) : State :=
  let t := s.lineLeaves (p.addr / 128)
  { t with
    mem := writeBytes t.mem p.addr p.size p.value
    icache := t.icacheCoherent p.addr p.size
    ncRecent := storeParts t.mem p.addr p.size ++ t.ncRecent
    early := t.early ++ [p.over t.codeMem]
    unflushed := dropAddrs t.unflushed p.addr p.size }

/-- The early store is the one of `n` bytes of `v` at `a`, and its place in the program is here. -/
def EarlyStore.isThis (p : EarlyStore) (a n : Nat) (v : Vec) : Bool :=
  p.addr == a && p.size == n && p.value == lowBytes v n

/-- The first of the early stores that is this one, and the others; and whether an earlier one of them, which it overlaps,
has not come yet: the two would have taken effect against their order in the program. -/
def earlyTaken (a n : Nat) (v : Vec) : List EarlyDone → Option (EarlyDone × List EarlyDone × Bool)
  | [] => none
  | p :: ps =>
    if p.isThis a n v then some (p, ps, false)
    else (earlyTaken a n v ps).map fun r => (r.1, p :: r.2.1, p.overlaps a n || r.2.2)

/-- The program comes to an early store; `ps` are the others. From here on fetches may see it: what memory holds, its datum
even where a later store stands on it by now, or what stood there for them before (R247). -/
def State.earlyComes (s : State) (p : EarlyDone) (ps : List EarlyDone) (broken : Bool) : State :=
  let t := { s with early := ps, earlyBroken := s.earlyBroken || broken }
  let now := readBytes t.codeMem p.addr p.size
  { t with
    codeHist := oldBytes p.addr p.size (lowBytes p.value p.size) now ++ oldBytes p.addr p.size p.under now ++ t.codeHist }

/-- A non-cacheable store of the low `n` bytes of `v`: nothing more if it has taken effect early. It comes after the
non-cacheable stores before it to its bytes, so no later one of these has (R225). -/
def State.ncStore (s : State) (a n : Nat) (v : Vec) : State :=
  match earlyTaken a n v s.early with
  | some r => (s.earlyComes r.1 r.2.1 r.2.2).mergeStore true
  | none => ((s.putWaiting a n v).orderedBefore a n).mergeStore true

/-- Store the low `n` bytes of `v` at a location of memory space that exists. -/
def State.memStore (s : State) (pa : PAddr) (n : Nat) (v : Vec) (nc : Bool) : State :=
  if nc then s.ncStore (loc pa) n v else s.cachedStore (loc pa) n v

/-- A non-cacheable store that has taken effect when the instruction ends, with those it had to wait for. -/
def State.ncStoreNow (s : State) (a n : Nat) (v : Vec) : State :=
  let t := (s.lineLeaves (a / 128)).settleAt a n
  (((t.putBytes a n v).uncached a n).orderedBefore a n).mergeStore true

/-- The store of an atomic: nothing takes effect between its load and it, and no store of another agent can come beneath
it, in non-cacheable memory either (R490, R492). -/
def State.atomicStore (s : State) (pa : PAddr) (n : Nat) (v : Vec) : State :=
  if pa.getLsbD 46 then s.ncStoreNow (loc pa) n v
  else ((((s.storeErrors (loc pa) n).putNow (loc pa) n v).cached (loc pa) n).forceErrors (loc pa) n)

/-- Another agent stores one byte: the reserved line is lost (R507), the line leaves the data cache, and a fetch may still
see the old byte. -/
def State.agentStore (s : State) (a : BitVec 46) (b : Byte) : State :=
  let t := (s.lineLeaves (a.toNat / 128)).putDrawn a.toNat 1 (b.setWidth 256)
  { t with
    lock := if a.extractLsb' 7 39 = s.lock.addr.extractLsb' 7 39 then { s.lock with kept := false } else s.lock
    unflushed := dropAddrs t.unflushed a.toNat 1 }

/-! ## I/O space (R219, R680; log 41) -/

/-- The register of the aligned eight bytes number `a`. -/
def iorLookup : List (Nat × Ior) → Nat → Option Ior
  | [], _ => none
  | (k, r) :: rest, a => if k % 2 ^ 46 / 8 = a then some r else iorLookup rest a

/-- The I/O register an address reaches (parameter IOR_MAP): that of the location PA[45:0], in I/O space as in memory space
(R424). -/
def State.iorAt (s : State) (pa : PAddr) : Option Ior := iorLookup s.plat.iorMap (loc pa / 8)

/-- A read of the register is answered, not refused: the mailbox of another core is not readable (R662). -/
def State.iorReadable (s : State) (r : Ior) : Bool :=
  match r with
  | .mailBox i => i == s.plat.coreId
  | _ => true

/-- A register software may write (R242, R327; log 41). -/
def Ior.writable : Ior → Bool
  | .mailStat _ => false
  | .cpmProbeOk => false
  | .chipCore => false
  | .device w => w
  | _ => true

/-- A write of the register is accepted; of another it gets an illegal-address response (R242, R327), and so it does of the
mailbox of a core that is disconnected, which this one is not (R331, R662). -/
def State.iorAccepts (s : State) (r : Ior) : Bool :=
  match r with
  | .mailBox i => i == s.plat.coreId || !s.disconnected.getLsbD i.toNat
  | r => r.writable

/-- The stored value of a named register; a free value for the ones whose content the source does not lay out. -/
def State.iorValue (s : State) (r : Ior) : Word :=
  match r with
  | .inten => s.ior.inten
  | .iintMis => s.ior.iintMis
  | .siFaultStat => s.ior.siFaultStat
  | .intlos => s.ior.intlos
  | .mtInt => s.ior.mtInt
  | .cpmCoreSleep => s.ior.cpmCoreSleep
  | .cpmProbeOk => s.ior.cpmProbeOk
  | .sleepDone => s.ior.sleepDone
  | .coreOnline => s.ior.coreOnline
  | .initCtl => s.ior.initCtl
  | .chipCore => s.ior.chipCore
  | .mailBox _ => s.ior.mailQueue.headD 0
  | .mailStat _ | .device _ => s.free.extractLsb' 0 64

/-- A named register takes a value. -/
def IorRegs.set (g : IorRegs) (r : Ior) (v : Word) : IorRegs :=
  match r with
  | .inten => { g with inten := v }
  | .iintMis => { g with iintMis := v }
  | .siFaultStat => { g with siFaultStat := v }
  | .intlos => { g with intlos := v }
  | .mtInt => { g with mtInt := v }
  | .cpmCoreSleep => { g with cpmCoreSleep := v }
  | .cpmProbeOk => { g with cpmProbeOk := v }
  | .sleepDone => { g with sleepDone := v }
  | .coreOnline => { g with coreOnline := v }
  | .initCtl => { g with initCtl := v }
  | .chipCore => { g with chipCore := v }
  | .mailBox _ | .mailStat _ | .device _ => g

/-- The offset in bits of an address in its aligned eight bytes. -/
def laneShift (pa : PAddr) : Nat := 8 * (pa.extractLsb' 0 3).toNat

/-- Read `n` bytes of an I/O register that exists. Reading the own mailbox takes the oldest message and counts
II_MAIL down; an empty one answers 0 (R662). A load narrower than 8 bytes, of which the spec says nothing, takes the whole
message too and gives the bytes at its offset, DESIGN CHOICE (R424, R662; log 41). -/
def State.ioLoad (s : State) (pa : PAddr) (n : Nat) (r : Ior) : Vec × State :=
  let v : Vec := ((s.iorValue r) >>> laneShift pa).setWidth 256
  let s := s.closeMerge
  match r with
  | .mailBox _ =>
    if s.ior.mailQueue.isEmpty then (v, s)
    else (v, { s with ior := { s.ior with mailQueue := s.ior.mailQueue.tail }
                      ibox := { s.ibox with iiMail := s.ibox.iiMail - 1 } })
  | .mailStat _ => (v, s.drawn)
  | .device _ => (v, s.drawn.send (.ioRead pa n))
  | _ => (v, s)

/-- Write the low `n` bytes of `x` to an I/O register that exists and accepts the write (R424, R662, R677, R680). A MAIL_BOX
takes a message with every store; one narrower than 8 bytes, for which the spec gives no effect, carries its bytes
zero-extended, whatever its offset, DESIGN CHOICE (R662; log 41). -/
def State.ioStore (s : State) (pa : PAddr) (n : Nat) (x : Word) (r : Ior) : State :=
  let d : Word := (lowBytes (x.setWidth 256) n).setWidth 64
  let t := (s.mergeStore (decide (4 ≤ n))).send (.ioWrite pa n d)
  let merged := setField (s.iorValue r) (laneShift pa) (8 * n) d
  match r with
  | .mailBox i =>
    if i = s.plat.coreId then
      if s.ior.mailQueue.length < s.plat.mailDepth then
        { t with ior := { s.ior with mailQueue := s.ior.mailQueue ++ [d] } }
      else { t with ior := { s.ior with mailFull := s.ior.mailFull ||| ((1 : BitVec 16) <<< s.plat.coreId.toNat) } }
    else t.send (.mail i d)
  | .cpmCoreSleep => { t with ior := { s.ior with cpmCoreSleep := 1 } }
  | .device _ => t
  | _ => { t with ior := s.ior.set r merged }

/-! ## Both spaces -/

/-- PA[47]: I/O space (R211). -/
def isIo (pa : PAddr) : Bool := pa.getLsbD 47

/-- The access reads line PA[45:7] of memory. -/
def inLine (pa : PAddr) (line : Nat) : Bool := !isIo pa && loc pa / 128 == line

/-- An ordinary access is non-cacheable when PA[46] = 1; an _NC access always is (R212). -/
def isNc (forced : Bool) (pa : PAddr) : Bool := forced || pa.getLsbD 46

/-- A read of I/O space whose response is bad, the report being off, gives a free value (R326, R333; log 44). -/
def State.ioAnswer (s : State) (x : Vec × State) : Vec × State :=
  if s.armed = some .ioMemError then (x.2.free, { x.2.drawn with armed := none }) else x

/-- Read after every check has passed. -/
def State.loadPhys (s : State) (pa : PAddr) (n : Nat) (forcedNc : Bool) : Vec × State :=
  if isIo pa then
    match s.iorAt pa with
    | some r => s.ioAnswer (s.ioLoad pa n r)
    | none => (0, s)
  else s.memLoad pa n (isNc forcedNc pa)

/-- Write after every check has passed. A write to an address that does not exist, to a read-only register or to the mailbox
of a disconnected core changes nothing and is reported later (R331, R662; log 42). A write of no byte (a VSTx_UH at the start of its block, R444) sends no
request and so has no error to report, DESIGN CHOICE (log 57). -/
def State.storePhys (s : State) (pa : PAddr) (n : Nat) (v : Vec) (forcedNc : Bool) : State :=
  if n = 0 then s
  else if isIo pa then
    match s.iorAt pa with
    | some r => if s.iorAccepts r then s.ioStore pa n (v.setWidth 64) r else s.lateWriteError 7
    | none => s.lateWriteError 7
  else if s.memExists pa n then s.memStore pa n v (isNc forcedNc pa)
  else s.lateWriteError 8

end Sys2Proof.Machine
end

