-- ==== Sys2Proof/Machine/Operands.lean ====
section
/-! DEFINITION. Operand forms: effective addresses, literals, transfer targets, and the conversions between memory
and register formats. -/

namespace Sys2Proof.Machine

/-- Effective address of the MEM format: base plus signed disp16 (R361, R420). -/
def State.ea16 (s : State) (rb : Reg) (d : BitVec 16) : Word := s.readReg rb + d.signExtend 64

/-- Effective address of the MEMFN format: base plus signed disp12 (R361, R420). -/
def State.ea12 (s : State) (rb : Reg) (d : BitVec 12) : Word := s.readReg rb + d.signExtend 64

/-- The zero-extended literal (R361). -/
def litValue (l : BitVec 8) : Word := l.setWidth 64

/-- The low 32 bits, sign-extended (R427). -/
def sextW (v : Word) : Word := (v.extractLsb' 0 32).signExtend 64

/-- A fetched datum in an integer register: a word is sign-extended, a long taken whole (R427, R428). -/
def extendBySize (n : Nat) (v : Word) : Word := if n = 4 then sextW v else v

/-- The address of the next instruction, mode bits cleared (R521). -/
def nextAddr (pc : Word) : Word := clearLow2 pc + 4

/-- The target of a PC-relative branch, mode bits 00 (R521). -/
def branchTarget (pc : Word) (d : BitVec 21) : Word := nextAddr pc + (d.signExtend 64 <<< 2)

/-- An address with the current mode in bits [1:0] (R521, R522). -/
def withMode (t pc : Word) : Word := clearLow2 t ||| (pc &&& 3)

/-- The register format of a single: sign, exponent widened to 11 bits, fraction at the top (R434). -/
def fldsConvert (m : BitVec 32) : Word :=
  let s : BitVec 1 := m.extractLsb' 31 1
  let e : BitVec 8 := m.extractLsb' 23 8
  let f : BitVec 23 := m.extractLsb' 0 23
  let e7 : BitVec 1 := m.extractLsb' 30 1
  let e11 : BitVec 11 :=
    if e = 0xFF then 0x7FF else if e = 0 then 0 else e7 ++ ~~~e7 ++ ~~~e7 ++ ~~~e7 ++ m.extractLsb' 23 7
  s ++ e11 ++ f ++ (0 : BitVec 29)

/-- The memory format of a single: register bits [63:62] and [58:29] (R436). -/
def fstsConvert (v : Word) : BitVec 32 := (v.extractLsb' 62 2 : BitVec 2) ++ (v.extractLsb' 29 30 : BitVec 30)

/-- Four singles of 16 bytes, each in register format in its 64-bit element (R443). -/
def fldsVec (m : Vec) : Vec :=
  vec4 (fldsConvert (m.extractLsb' 0 32)) (fldsConvert (m.extractLsb' 32 32))
    (fldsConvert (m.extractLsb' 64 32)) (fldsConvert (m.extractLsb' 96 32))

/-- The 16 memory-format bytes of four elements (R443, R450). -/
def fstsVec (v : Vec) : Vec :=
  (fstsConvert (elem v 3) ++ fstsConvert (elem v 2) ++ fstsConvert (elem v 1) ++ fstsConvert (elem v 0) :
    BitVec 128).setWidth 256

/-- A 64-bit datum in all four elements (R447, R448). -/
def splat64 (d : Word) : Vec := vec4 d d d d

/-- A 32-bit word in all eight lanes (R441). -/
def splat32 (w : BitVec 32) : Vec := splat64 (w ++ w)

end Sys2Proof.Machine
end

