-- ==== Sys2Proof/Machine/Access.lean ====
section
/-! DEFINITION. The path of every data access: sign check, alignment, translation and permission, match, legality
(spec/20_memory.md R250), and what each fault records (spec/60_exceptions.md R601 to R616). -/

namespace Sys2Proof.Machine

/-- The classes that R241 and R424 treat differently in I/O and non-cacheable space. -/
inductive MemClass where
  | scalar | vector | atomic | nonCache | lock
  deriving DecidableEq, Repr

/-- What the data-value match compares (R704). -/
inductive StoreValue where
  /-- No store-class instruction: a load, an atomic, a cache control instruction. -/
  | none
  /-- `n` bytes of data, `n` at most 8. -/
  | bytes (n : Nat) (v : Word)
  /-- A store for which the spec leaves the match open (U13; log 49). -/
  | free
  deriving DecidableEq, Repr

/-- One data access. -/
structure MemReq where
  /-- The effective address. -/
  va : Word
  /-- Bytes from `va` that must exist. -/
  size : Nat
  /-- The alignment checked, in bytes; 1 for none. -/
  align : Nat
  /-- For an ordinary vector access the alignment of its elements, else 0 (R610). -/
  elemAlign : Nat := 0
  reads : Bool
  writes : Bool
  cls : MemClass
  /-- A /p form: `va` is a physical address (R391). -/
  phys : Bool := false
  /-- The mode whose rights are checked (R286). -/
  pm : Mode
  /-- A /vpte form: its DTB miss is the double miss (R287). -/
  vpte : Bool := false
  value : StoreValue := .none
  /-- The bytes accessed lie in the aligned block of this size that holds `va`: low address bits are dropped after
  translation (R429, R446, R444); 1 for none. -/
  block : Nat := 1
  deriving DecidableEq, Repr

/-! ## Records -/

/-- Reads and writes: an atomic. -/
def MemReq.isAtomic (q : MemReq) : Bool := q.reads && q.writes

/-- A store-class instruction: it takes part in the value match (R439). -/
def MemReq.isStore (q : MemReq) : Bool := q.value != .none

/-- DC_CTL[DV_MATCH_EN] (R151). -/
def State.dvEn (s : State) : Bool := s.dbox.dcCtl.getLsbD 19

/-- DC_CTL[DAV_MATCH_EN] (R151). -/
def State.davEn (s : State) : Bool := s.dbox.dcCtl.getLsbD 20

/-- The match bits of DS_STAT that a store's other exception may leave set (R706, U14; log 20): DV_MATCH with a sign,
alignment or tag-parity error (`early`), DA_MATCH with any earlier exception when all three matches are on. -/
def State.strayMask (s : State) (q : MemReq) (early : Bool) : Word :=
  flag (q.isStore && s.dvEn && early) 19
    ||| flag (q.isStore && s.dvEn && s.davEn && s.dbox.daMatch.getLsbD 54) 13

/-- DS_STAT rewritten: flags, OPCODE, WR (R607; D27). -/
def State.setDsStat (s : State) (bits : Word) (wr : Bool) : State :=
  { s with dbox := { s.dbox with dsStat := bits ||| (s.irOp.setWidth 64 <<< 4) ||| flag wr 0 } }

/-- DVA records an address (R157). -/
def State.setDva (s : State) (v : Word) : State := { s with dbox := { s.dbox with dva := v } }

/-- A single DTB miss, UNALIGN or DFAULT: EXC_PC, DVA, DS_STAT, EXC_SUM[REG] (R602, R607, R608, R610). WR of an atomic
is free (U11), and so are the stray match bits (U14). -/
def State.raiseData (s : State) (q : MemReq) (e : Exc) (bits stray dva : Word) : State :=
  let wr := if q.isAtomic then s.free.getLsbD 0 else q.writes
  let b := if stray = 0 then bits else bits ||| (s.free.extractLsb' 64 64 &&& stray)
  let t := if q.isAtomic || stray != 0 then s.drawn else s
  (((t.setExcSum 0 s.irRa).setDsStat b wr).setDva dva).enter e s.pc

/-- The physical address as DVA holds it: bits [63:48] are not meaningful, free (R157; log 21). -/
def State.dvaOfPhys (s : State) (pa : PAddr) : Word := s.free.extractLsb' 128 16 ++ pa

/-- A data fault that records the physical address (R157). -/
def State.raiseDataPhys (s : State) (q : MemReq) (bits stray : Word) (pa : PAddr) : State :=
  (s.drawn).raiseData q .dfault bits stray (s.dvaOfPhys pa)

/-- The double miss: EXC_PC and EXC_SUM[REG] only (R603). -/
def State.raiseDtbDouble (s : State) : State := (s.setExcSum 0 s.irRa).enter .dtbmDouble s.pc

/-! ## Matches (R703 to R705) -/

/-- The address match (R703). A /p form is compared as a physical address only. -/
def State.daHit (s : State) (q : MemReq) (pa : PAddr) : Bool :=
  let m := s.dbox.daMatch
  let usesPa := m.getLsbD 55
  let applies := (m.getLsbD 53 && q.reads) || (m.getLsbD 54 && q.writes)
  let a : Word := if usesPa then pa.setWidth 64 else q.va
  let width : Word := if usesPa then 0xFFFFFFFFFFFF else 0x1FFFFFFFFFFFFF
  let bad := (a ^^^ m ^^^ ~~~s.dbox.daMatchMode) &&& s.dbox.daMask &&& width
  applies && (usesPa || !q.phys) && bad == 0

/-- The lanes of the aligned eight bytes that DV_MASK selects lie within the `n` bytes stored at offset `o`. -/
def lanesCovered (mask : Word) (o n : Nat) : Bool :=
  (List.range 8).all fun k => mask.extractLsb' (8 * k) 8 == 0 || (decide (o ≤ k) && decide (k < o + n))

/-- Where in its aligned eight bytes a store puts its data: STL_U and VSTx_UH drop the low address bits (R444, R446, R704). -/
def MemReq.lane (q : MemReq) : Nat := if q.block = 1 then (q.va.extractLsb' 0 3).toNat else 0

/-- The value match (R704); where the spec leaves it open it is the free bit `f`. -/
def State.dvHit (s : State) (q : MemReq) (f : Bool) : Bool :=
  match q.value with
  | .none => false
  | .free => s.dvEn && f
  | .bytes n v =>
    let w := v <<< (8 * q.lane)
    s.dvEn && lanesCovered s.dbox.dvMask q.lane n && ((w ^^^ s.dbox.dvMatch) &&& s.dbox.dvMask == 0)

/-- What the checks of a data access answer. -/
inductive Checked where
  /-- All passed: the physical address, and the state (a pending error may have been recorded). -/
  | ok (pa : PAddr) (s : State)
  /-- An exception was taken. -/
  | trap (s : State)
  /-- The model stops. -/
  | stuck (f : Fault)

/-! ## Steps 1 to 3 of R250 -/

/-- The sign check is made: for every memory instruction whose address is virtual (R236). For a /p form R391, the rule of
these forms, says that there is none, R236's last sentence in passing that there is one: by the order of precedence of
spec/90_conflicts.md (2) there is none, DEDUCED, and the platform parameter gives the other reading (log 15). -/
def State.signChecked (s : State) (q : MemReq) : Bool := !q.phys || s.plat.physSignCheck

/-- The sign check and the alignment check (R236, R239, R391). -/
def State.addressCheck (s : State) (q : MemReq) : Option State :=
  if badSext q.va && s.signChecked q then some (s.raiseData q .dfault (flag true 11) (s.strayMask q true) q.va)
  else if q.va.toNat % q.align ≠ 0 then
    some (s.raiseData q .unalign (flag (q.elemAlign ≠ 0 && q.va.toNat % q.elemAlign = 0) 15) (s.strayMask q true) q.va)
  else none

/-- The address is used as it is: a /p form, or a VM super-page address (R223). -/
def MemReq.bypasses (q : MemReq) : Bool := q.phys || (q.pm == .vm && !q.va.getLsbD 52)

/-- Drop the low bits below an aligned block. -/
def alignDown (pa : PAddr) (block : Nat) : PAddr := BitVec.ofNat 48 (pa.toNat / block * block)

/-- Translation and permission (R285 to R287). -/
def State.translate (s : State) (q : MemReq) : Checked :=
  if q.bypasses then .ok (q.va.setWidth 48) s
  else
    match s.dtbLookup q.pm q.reads q.writes q.va with
    | .pa p => .ok p s
    | .denied a r w =>
      .trap (s.raiseData q .dfault (flag a 1 ||| flag r 2 ||| flag w 3) (s.strayMask q false) q.va)
    | .miss =>
      if q.vpte then .trap s.raiseDtbDouble
      else .trap (s.raiseData q (if q.va.getLsbD 52 then .dtbmSingle1 else .dtbmSingle0) 0 (s.strayMask q false) q.va)
    | .multiple => .stuck .dtbMultiHit

/-! ## Step 4: the debug matches -/

/-- The outcome table of the two matches (R705): the state after DFAULT, if it is taken. -/
def State.matchCheck (s : State) (q : MemReq) (pa : PAddr) : Option State :=
  let da := s.daHit q pa
  let dv := s.dvHit q (s.free.getLsbD 1)
  let t := if s.dvEn && q.value = .free then s.drawn else s
  let bits := flag da 13 ||| flag dv 19 ||| flag (da && dv) 20
  if s.davEn then
    if da && dv then some (t.raiseDataPhys q bits 0 pa) else none
  else if da then some (t.raiseData q .dfault bits 0 q.va)
  else if dv then some (t.raiseDataPhys q bits 0 pa)
  else none

/-! ## Step 5: legality of the physical address -/

/-- Illegal by the class of the instruction: DVA keeps the effective address (R241, R424, R613 b, c). -/
def MemReq.classIllegal (q : MemReq) (pa : PAddr) : Bool :=
  match q.cls with
  | .scalar => false
  | .vector | .atomic | .nonCache => isIo pa
  | .lock => isIo pa || pa.getLsbD 46

/-- Illegal because nothing answers a read, or the line read of a cacheable write, there: DVA takes the physical
address (R242, R613 a, R157). A read of another core's MAIL_BOX is among them: R662 says only that it gets an error response,
and of the three that R333 lists the model makes it an illegal-address response, DESIGN CHOICE (log 41). A cacheable store of no
byte (a VSTx_UH at the start of its block, R444, R477) is tested with size 0: a block that begins at MEM_SIZE is answered, one
that begins above it is not, DESIGN CHOICE (log 57). -/
def State.unanswered (s : State) (q : MemReq) (pa : PAddr) : Bool :=
  if isIo pa then
    q.reads && (match s.iorAt pa with | some r => !s.iorReadable r | none => true)
  else !s.memExists pa q.size && (q.reads || !isNc (q.cls == .nonCache) pa)

/-! ## Errors reported with the data (R317, R318, R321, R322; log 44) -/

/-- The access goes past the data cache: I/O or non-cacheable space, or an _NC form. -/
def MemReq.uncached (q : MemReq) (pa : PAddr) : Bool := isIo pa || isNc (q.cls == .nonCache) pa

/-- A store for which no data are read: it writes past the data cache (R327). -/
def MemReq.pureWrite (q : MemReq) (pa : PAddr) : Bool := q.writes && !q.reads && q.uncached pa

/-- The access finds an ECC error in the data cache, and its report is on (R318). -/
def State.dcFault (s : State) (q : MemReq) (pa : PAddr) : Bool :=
  s.dbox.dcCtl.getLsbD 9 && q.reads && !q.uncached pa && s.dcBad (loc pa) q.size

/-- The access finds a tag of wrong parity in the data cache, and its report is on (R317). With DC_CTL[DCTAG_PAR_EN] = 0 the
access goes on with the right data, the error unrecorded and still there: what it does then the spec does not say, DESIGN
CHOICE (log 67). -/
def State.tagFault (s : State) (q : MemReq) (pa : PAddr) : Bool :=
  s.dbox.dcCtl.getLsbD 4 && !q.uncached pa && s.tagBad (loc pa)

/-- An armed error strikes this access, if it is one it can strike: DFAULT, a machine check, or a record only. With the
report of a bad response off (SYSDAT_ERR_EN = 0) the access goes on and reads the bad data, which are free values (R321,
R322, R326, R616; log 44). -/
def State.armedError (s : State) (q : MemReq) (pa : PAddr) : Checked :=
  let t := { s with armed := none }
  match s.armed with
  | some (.dataMemError l) =>
    if q.pureWrite pa || !inLine pa l then .ok pa s
    else if s.sbox.scCtl.getLsbD 16 then .trap ((t.scError 12).raiseDataPhys q (flag true 16) 0 pa)
    else .ok pa t
  | some .ioMemError =>
    if isIo pa && q.reads && s.sbox.scCtl.getLsbD 16 then .trap ((t.scError 12).raiseDataPhys q (flag true 16) 0 pa)
    else .ok pa s
  | some .dataAckError =>
    if q.pureWrite pa then .ok pa s
    else if s.sbox.scCtl.getLsbD 14 && s.dbox.dcCtl.getLsbD 7 then
      let u := (t.setDcStat 0).mchkRequest
      if s.mchkEnabled then .trap (u.enterInterrupt .mchk) else .ok pa u
    else .ok pa t
  | _ => .ok pa s

/-- The errors reported with the data: a tag parity error of the data cache, counted; else an ECC error; both stay until
their line leaves; else an armed one (R317, R318; log 67). With DCDAT_ERR_EN = 0 the load goes on and gets a free value: the
spec does not say what it returns, DESIGN CHOICE. Of an access that finds both a tag and an ECC error the tag error alone is
recorded, TAG_PERR without DAT_ERR: R595 (item 4) and R615 give no order among the errors reported with the data, DESIGN
CHOICE (log 67). A store of no byte (a VSTx_UH at the start of its block, R444, R477) meets a tag error and an armed error of
its line as any store to it, where the spec is silent: DESIGN CHOICE (log 57). -/
def State.dataError (s : State) (q : MemReq) (pa : PAddr) : Checked :=
  if s.tagFault q pa then .trap (s.countCorrected.raiseDataPhys q (flag true 10) (s.strayMask q true) pa)
  else if s.dcFault q pa then .trap (s.raiseDataPhys q (flag true 14) 0 pa)
  else s.armedError q pa

/-- The illegal-address response to an I/O read or an atomic is no response of its type: CTL_ERR_RQ1_ACK (R167, R328). It is
reported outside as a hardware fault too, DESIGN CHOICE (log 71). -/
def State.answerError (s : State) (q : MemReq) (pa : PAddr) : State :=
  if isIo pa || q.isAtomic then s.scError 14 else s

/-- Steps 4 and 5 and the reported errors, for a translated access. An address beyond memory and an error with the data record
in DVA the physical address of the bytes accessed: of the aligned block, for a form that drops low address bits (VLDx_U,
VSTx_U, VSTx_UH, STL_U), and a value match that of the effective address, where R421, R613 and R157 say only that it is the
physical address, DESIGN CHOICE (log 16). -/
def State.accessCheck (s : State) (q : MemReq) (pa0 : PAddr) : Checked :=
  match s.matchCheck q pa0 with
  | some t => .trap t
  | none =>
    let s1 := if s.dvEn && q.value = .free then s.drawn else s
    let pa := alignDown pa0 q.block
    if q.classIllegal pa then .trap (s1.raiseData q .dfault (flag true 12) 0 q.va)
    else if s1.unanswered q pa then .trap ((s1.answerError q pa).raiseDataPhys q (flag true 12) 0 pa)
    else s1.dataError q pa

/-- Every check of a data access, in the order of R250. -/
def State.check (s : State) (q : MemReq) : Checked :=
  match s.addressCheck q with
  | some t => .trap t
  | none =>
    match s.translate q with
    | .ok pa t => t.accessCheck q pa
    | c => c

/-! ## The shared shapes of memory instructions -/

/-- Run the access after its checks. -/
def Checked.andThen (c : Checked) (run : PAddr → State → State) : Result :=
  match c with
  | .ok pa s => .next (run pa s)
  | .trap s => .next s
  | .stuck f => .fault f

/-- A load: check, read `n` bytes, hand them on, advance. -/
def State.execLoad (s : State) (q : MemReq) (n : Nat) (use : State → Vec → State) : Result :=
  (s.check q).andThen fun pa t =>
    let r := t.loadPhys pa n (q.cls == .nonCache)
    (use r.2 r.1).advance

/-- A store: check, write the low `n` bytes of `v`, advance. -/
def State.execStore (s : State) (q : MemReq) (n : Nat) (v : Vec) : Result :=
  (s.check q).andThen fun pa t => (t.storePhys pa n v (q.cls == .nonCache)).advance

end Sys2Proof.Machine
end

