-- ==== Sys2Proof/Machine/LoadStore.lean ====
section
/-! DEFINITION. Integer and floating-point loads and stores, their non-cacheable forms, and the cache control
instructions (spec/42_load_store.md sections 2, 3, 5, 6). -/

namespace Sys2Proof.Machine

/-! ## Requests -/

/-- A naturally aligned read of `n` bytes with the rights of the current mode (R421, R422). -/
def State.loadReq (s : State) (va : Word) (n : Nat) (cls : MemClass) : MemReq :=
  { va := va, size := n, align := n, reads := true, writes := false, cls := cls, pm := s.mode }

/-- A naturally aligned write of the low `n` bytes of `v`, at most 8 (R421, R422, R439). -/
def State.storeReq (s : State) (va : Word) (n : Nat) (cls : MemClass) (v : Word) : MemReq :=
  { va := va, size := n, align := n, reads := false, writes := true, cls := cls, pm := s.mode, value := .bytes n v }

/-- No alignment check; the low three address bits are dropped (R429, R446; log 16). -/
def MemReq.unaligned8 (q : MemReq) : MemReq := { q with align := 1, block := 8 }

/-! ## Shared shapes -/

/-- A load into R[ra]; null when `ra` is 31 (R423). -/
def State.execIntLoad (s : State) (ra : Reg) (q : MemReq) (n : Nat) (ext : Word → Word) : Result :=
  if ra = 31 then s.execNull
  else s.atDecode none .int (s.execLoad q n fun t v => t.writeReg ra (ext (v.extractLsb' 0 64)))

/-- A load of kind `k` into F[fa]; null when `fa` is 31 (R423, R434). -/
def State.execFloatLoad (s : State) (fa : Reg) (q : MemReq) (n : Nat) (k : DataKind) (conv : Word → Word) : Result :=
  if fa = 31 then s.execNull
  else s.atDecode none .fp (s.execLoad q n fun t v => t.writeF fa (conv (v.extractLsb' 0 64)) k)

/-- A store of the low `n` bytes of `v` by an integer instruction. -/
def State.execIntStore (s : State) (va : Word) (n : Nat) (cls : MemClass) (v : Word) : Result :=
  s.atDecode none .int (s.execStore (s.storeReq va n cls v) n (v.setWidth 256))

/-- A store by a floating-point instruction of the low `n` bytes of F[fa], used as kind `k` and converted. -/
def State.execFloatStore (s : State) (fa : Reg) (va : Word) (n : Nat) (cls : MemClass) (k : DataKind)
    (conv : Word → Word) : Result :=
  let x := s.useF fa k
  s.atDecode none .fp (x.2.execStore (s.storeReq va n cls (conv x.1)) n ((conv x.1).setWidth 256))

/-- The low 8 bits, zero-extended (R425). -/
def zextB (v : Word) : Word := (v.extractLsb' 0 8).setWidth 64

/-- The low 16 bits, zero-extended (R426). -/
def zextH (v : Word) : Word := (v.extractLsb' 0 16).setWidth 64

/-- The register format of the single in the low 32 bits (R434). -/
def fldsWord (v : Word) : Word := fldsConvert (v.extractLsb' 0 32)

/-- The memory format of a single, in the low 32 bits (R436). -/
def fstsWord (v : Word) : Word := (fstsConvert v).setWidth 64

/-! ## Meanings -/

/-- `LDBU` Ra,disp(Rb) (R425). -/
def execLdbu (ra rb : Reg) (disp : BitVec 16) (s : State) : Result :=
  s.execIntLoad ra (s.loadReq (s.ea16 rb disp) 1 .scalar) 1 zextB

/-- `LDHU` Ra,disp(Rb) (R426). -/
def execLdhu (ra rb : Reg) (disp : BitVec 16) (s : State) : Result :=
  s.execIntLoad ra (s.loadReq (s.ea16 rb disp) 2 .scalar) 2 zextH

/-- `LDW` Ra,disp(Rb) (R427). -/
def execLdw (ra rb : Reg) (disp : BitVec 16) (s : State) : Result :=
  s.execIntLoad ra (s.loadReq (s.ea16 rb disp) 4 .scalar) 4 sextW

/-- `LDL` Ra,disp(Rb) (R428). -/
def execLdl (ra rb : Reg) (disp : BitVec 16) (s : State) : Result :=
  s.execIntLoad ra (s.loadReq (s.ea16 rb disp) 8 .scalar) 8 id

/-- `LDL_U` Ra,disp(Rb): as LDL, or with the low address bits dropped, by parameter LDL_U_IGNORES_LOW_BITS (R429). -/
def execLdlU (ra rb : Reg) (disp : BitVec 16) (s : State) : Result :=
  let q := s.loadReq (s.ea16 rb disp) 8 .scalar
  s.execIntLoad ra (if s.plat.ldlUIgnores then q.unaligned8 else q) 8 id

/-- `STB` Ra,disp(Rb) (R430). -/
def execStb (ra rb : Reg) (disp : BitVec 16) (s : State) : Result :=
  s.execIntStore (s.ea16 rb disp) 1 .scalar (s.readReg ra)

/-- `STH` Ra,disp(Rb) (R431). -/
def execSth (ra rb : Reg) (disp : BitVec 16) (s : State) : Result :=
  s.execIntStore (s.ea16 rb disp) 2 .scalar (s.readReg ra)

/-- `STW` Ra,disp(Rb) (R432). -/
def execStw (ra rb : Reg) (disp : BitVec 16) (s : State) : Result :=
  s.execIntStore (s.ea16 rb disp) 4 .scalar (s.readReg ra)

/-- `STL` Ra,disp(Rb) (R433). -/
def execStl (ra rb : Reg) (disp : BitVec 16) (s : State) : Result :=
  s.execIntStore (s.ea16 rb disp) 8 .scalar (s.readReg ra)

/-- `STL_U` Ra,disp(Rb) (R446). -/
def execStlU (ra rb : Reg) (disp : BitVec 16) (s : State) : Result :=
  let v := s.readReg ra
  s.atDecode none .int (s.execStore (s.storeReq (s.ea16 rb disp) 8 .scalar v).unaligned8 8 (v.setWidth 256))

/-- `FLDS` Fa,disp(Rb) (R434). -/
def execFlds (fa rb : Reg) (disp : BitVec 16) (s : State) : Result :=
  s.execFloatLoad fa (s.loadReq (s.ea16 rb disp) 4 .scalar) 4 .single fldsWord

/-- `FLDD` Fa,disp(Rb) (R435). -/
def execFldd (fa rb : Reg) (disp : BitVec 16) (s : State) : Result :=
  s.execFloatLoad fa (s.loadReq (s.ea16 rb disp) 8 .scalar) 8 .image id

/-- `FSTS` Fa,disp(Rb) (R436). -/
def execFsts (fa rb : Reg) (disp : BitVec 16) (s : State) : Result :=
  s.execFloatStore fa (s.ea16 rb disp) 4 .scalar .single fstsWord

/-- `FSTD` Fa,disp(Rb) (R437). -/
def execFstd (fa rb : Reg) (disp : BitVec 16) (s : State) : Result :=
  s.execFloatStore fa (s.ea16 rb disp) 8 .scalar .image id

/-- `LDW_NC` Ra,disp(Rb) (R461). -/
def execLdwNc (ra rb : Reg) (disp : BitVec 12) (s : State) : Result :=
  s.execIntLoad ra (s.loadReq (s.ea12 rb disp) 4 .nonCache) 4 sextW

/-- `LDL_NC` Ra,disp(Rb) (R462). -/
def execLdlNc (ra rb : Reg) (disp : BitVec 12) (s : State) : Result :=
  s.execIntLoad ra (s.loadReq (s.ea12 rb disp) 8 .nonCache) 8 id

/-- `LDD_NC` Fa,disp(Rb) (R463). -/
def execLddNc (fa rb : Reg) (disp : BitVec 12) (s : State) : Result :=
  s.execFloatLoad fa (s.loadReq (s.ea12 rb disp) 8 .nonCache) 8 .image id

/-- `STW_NC` Ra,disp(Rb) (R464). -/
def execStwNc (ra rb : Reg) (disp : BitVec 12) (s : State) : Result :=
  s.execIntStore (s.ea12 rb disp) 4 .nonCache (s.readReg ra)

/-- `STL_NC` Ra,disp(Rb) (R465). -/
def execStlNc (ra rb : Reg) (disp : BitVec 12) (s : State) : Result :=
  s.execIntStore (s.ea12 rb disp) 8 .nonCache (s.readReg ra)

/-- `STD_NC` Fa,disp(Rb) (R466). -/
def execStdNc (fa rb : Reg) (disp : BitVec 12) (s : State) : Result :=
  s.execFloatStore fa (s.ea12 rb disp) 8 .nonCache .image id

/-! ## Cache control (R470 to R475, R478; D21; log 48) -/

/-- The access of a cache control instruction: one line, a read for permission, no alignment check (R470). -/
def State.lineReq (s : State) (rb : Reg) (d : BitVec 16) : MemReq :=
  { va := s.ea16 rb d &&& ~~~(127 : Word), size := 128, align := 1, reads := true, writes := false, cls := .scalar,
    pm := s.mode }

/-- How a cache control instruction answers what goes wrong. -/
structure LineRule where
  /-- A DTB miss is taken. -/
  miss : Bool
  /-- A denied access is taken. -/
  denied : Bool
  /-- The legality of the address is checked, as for a load. -/
  legal : Bool := false
  /-- The line leaves the data cache. -/
  leaves : Bool := false
  /-- The line may be filled into the data cache. -/
  fills : Bool := false
  /-- The request goes to the system, which writes the line back to memory. -/
  evicts : Bool := false
  /-- An error in the system's answer is taken. -/
  answer : Bool := false
  deriving DecidableEq, Repr

/-- The translation fault is taken, not dropped (R471, R472, R475; D21). -/
def LineRule.takes (f : LineRule) : DtbResult → Bool
  | .miss => f.miss
  | .denied _ _ _ => f.denied
  | .pa _ | .multiple => true

/-- The answer to an eviction whose errors are taken: an illegal address and a control error as for a load (R475; D21). Whether
it may carry a multi-bit ECC error, which R333 lists for responses, the cut-off cell of R475 leaves open (N4): the model
takes none, and an armed one waits for another access, DESIGN CHOICE (log 48). -/
def State.evictAnswer (s : State) (q : MemReq) (pa : PAddr) : Checked :=
  if s.unanswered q pa then .trap ((s.scError 14).raiseDataPhys q (flag true 12) 0 pa)
  else match s.armed with
    | some .dataAckError => s.armedError q pa
    | _ => .ok pa s

/-- The effect of a cache control instruction on line PA[45:7] of `pa`: none that a load can see (R470), but that the line
leaves the data cache, with an error that stands in it, or may come into it for another one, and that the replacement pointer
of its set changes (R280; log 67), and that an evicted one stands in memory (log 45). -/
def State.lineEffect (s : State) (f : LineRule) (pa : PAddr) : State :=
  let t := if f.leaves then s.flushLine (loc pa / 128) else if f.fills then s.fillLine (loc pa) else s
  if f.evicts then { t with unflushed := dropAddrs t.unflushed (loc pa) 128 } else t

/-- A line that has been translated: null outside cacheable space, where no check follows; else the address match as a
read, the legality of the address (a flush) or the answer (an eviction), and the effect (R250, R421, R470, R703; log 48). An
eviction whose answer is an illegal address records nothing with EVICTD_ERR_EN = 0: R475 says that there is no machine
check, R167 and R328 gate CTL_ERR_RQ1_ACK by CTL_ERR_EN alone; DESIGN CHOICE (log 48). A FLUSHD of a line beyond
memory sets no CTL_ERR_RQ1_ACK, as a request that is not of the Evict class (R167; R169 and R472 leave open whether it is one),
and no control error or multi-bit ECC error of a response strikes a FLUSHD, where R321 and R322 except the data-fill
instructions only: DESIGN CHOICE both (log 48). -/
def State.execLineAt (s : State) (q : MemReq) (f : LineRule) (pa : PAddr) : Result :=
  if q.uncached pa then .next s.advance
  else match s.matchCheck q pa with
    | some t => .next t
    | none =>
      if f.legal && s.unanswered q pa then .next (s.raiseDataPhys q (flag true 12) 0 pa)
      else (if f.answer then s.evictAnswer q pa else .ok pa s).andThen fun p t => (t.lineEffect f p).advance

/-- A cache control instruction: BAD_DVA always, a translation fault where it is taken, then the line (R470). -/
def State.execLine (s : State) (rb : Reg) (d : BitVec 16) (illegal : Option Bool) (f : LineRule) : Result :=
  let q := s.lineReq rb d
  s.atDecode illegal .int
    (match s.addressCheck q with
    | some t => .next t
    | none =>
      match s.translate q with
      | .ok pa t => t.execLineAt q f pa
      | .trap t => .next (if f.takes (s.dtbLookup q.pm true false q.va) then t else s.advance)
      | .stuck x => .fault x)

/-- `FETCHD` disp(Rb): a miss is dropped unless DC_CTL[F_DTB_MISS] = 1, a denied access always (R471). -/
def execFetchd (rb : Reg) (disp : BitVec 16) (s : State) : Result :=
  s.execLine rb disp none { miss := s.dbox.dcCtl.getLsbD 16, denied := false, fills := true }

/-- `FETCHD_E` disp(Rb) (R478). -/
def execFetchdE (rb : Reg) (disp : BitVec 16) (s : State) : Result :=
  s.execLine rb disp none { miss := s.dbox.dcCtl.getLsbD 16, denied := false, fills := true }

/-- OPCDEC when a bit of CP_CTL is 0: ELB is bit 3, EGB bit 4 (R169, R472 to R474). -/
def State.cpIllegal (s : State) (i : Nat) : Option Bool := if s.sbox.cpCtl.getLsbD i then none else some false

/-- `FLUSHD` disp(Rb): faults as a load (R472). -/
def execFlushd (rb : Reg) (disp : BitVec 16) (s : State) : Result :=
  s.execLine rb disp (s.cpIllegal 3) { miss := true, denied := true, legal := true, leaves := true }

/-- An eviction: translation faults and errors of the answer are taken if DC_CTL[EVICTD_ERR_EN] = 1 (R475). -/
def State.evictRule (s : State) : LineRule :=
  { miss := s.dbox.dcCtl.getLsbD 5, denied := s.dbox.dcCtl.getLsbD 5, leaves := true, evicts := true,
    answer := s.dbox.dcCtl.getLsbD 5 }

/-- `EVICTDL` disp(Rb) (R473, R475). -/
def execEvictdl (rb : Reg) (disp : BitVec 16) (s : State) : Result :=
  s.execLine rb disp (s.cpIllegal 3) s.evictRule

/-- `EVICTDG` disp(Rb) (R474, R475). -/
def execEvictdg (rb : Reg) (disp : BitVec 16) (s : State) : Result :=
  s.execLine rb disp (s.cpIllegal 4) s.evictRule

end Sys2Proof.Machine
end

