-- ==== Sys2Proof/Machine/Atomic.lean ====
section
/-! DEFINITION. Atomic fetch-and-operate instructions and lock instructions (spec/43_atomic_lock.md). -/

namespace Sys2Proof.Machine

/-! ## Fetch and operate -/

/-- The three operations (R490). -/
inductive AtomicOp where
  | inc | dec | set
  deriving DecidableEq, Repr

/-- The value stored, of which the low `n` bytes count (R490, R492). -/
def AtomicOp.new (op : AtomicOp) (old : Word) : Word :=
  match op with
  | .inc => old + 1
  | .dec => old - 1
  | .set => 1

/-- The fetched datum of `n` bytes overflows: the largest for INC, the smallest for DEC (R493; D22). -/
def AtomicOp.overflows (op : AtomicOp) (n : Nat) (old : Word) : Bool :=
  match op with
  | .inc => if n = 4 then old.extractLsb' 0 32 == 0x7FFFFFFF else old == 0x7FFFFFFFFFFFFFFF
  | .dec => if n = 4 then old.extractLsb' 0 32 == 0x80000000 else old == 0x8000000000000000
  | .set => false

/-- A read and a write of `n` bytes with the rights of the current mode (R491). -/
def State.atomicReq (s : State) (va : Word) (n : Nat) : MemReq :=
  { va := va, size := n, align := n, reads := true, writes := true, cls := .atomic, pm := s.mode }

/-- The INCO trap is enabled: ICR[FD] = 0 and DC_CTL[ATOP_OVF_EN] = 1 (R493). -/
def State.incoEnabled (s : State) : Bool := !s.ebox.icr.getLsbD 0 && s.dbox.dcCtl.getLsbD 10

/-- What an atomic does once its checks have passed: read, write, old value to R[ra], next pc, then INCO if it
overflowed and `inco` says so (R490, R493, R626). -/
def State.fetchAndOp (s : State) (pc : Word) (ra : Reg) (pa : PAddr) (n : Nat) (op : AtomicOp) (inco : Bool) : State :=
  let r := s.loadPhys pa n false
  let old : Word := r.1.extractLsb' 0 64
  let t := ((r.2.atomicStore pa n ((op.new old).setWidth 256)).writeReg ra (extendBySize n old)).advance
  if inco && op.overflows n old then t.raiseArith pc (flag true 14) ra else t

/-- An unprivileged atomic (R490 to R493). -/
def State.execAtomic (s : State) (ra : Reg) (va : Word) (n : Nat) (op : AtomicOp) : Result :=
  s.atDecode none .int
    ((s.check (s.atomicReq va n)).andThen fun pa t => t.fetchAndOp s.pc ra pa n op s.incoEnabled)


/-- `LDW_INC` Ra,disp(Rb) (R492). -/
def execLdwInc (ra rb : Reg) (disp : BitVec 12) (s : State) : Result :=
  s.execAtomic ra (s.ea12 rb disp) 4 .inc

/-- `LDL_INC` Ra,disp(Rb) (R495). -/
def execLdlInc (ra rb : Reg) (disp : BitVec 12) (s : State) : Result :=
  s.execAtomic ra (s.ea12 rb disp) 8 .inc

/-- `LDW_DEC` Ra,disp(Rb) (R496). -/
def execLdwDec (ra rb : Reg) (disp : BitVec 12) (s : State) : Result :=
  s.execAtomic ra (s.ea12 rb disp) 4 .dec

/-- `LDL_DEC` Ra,disp(Rb) (R497). -/
def execLdlDec (ra rb : Reg) (disp : BitVec 12) (s : State) : Result :=
  s.execAtomic ra (s.ea12 rb disp) 8 .dec

/-- `LDW_SET` Ra,disp(Rb) (R498). -/
def execLdwSet (ra rb : Reg) (disp : BitVec 12) (s : State) : Result :=
  s.execAtomic ra (s.ea12 rb disp) 4 .set

/-- `LDL_SET` Ra,disp(Rb) (R499). -/
def execLdlSet (ra rb : Reg) (disp : BitVec 12) (s : State) : Result :=
  s.execAtomic ra (s.ea12 rb disp) 8 .set

/-! ## Locks -/

/-- The other slot of the pair holds a non-null RD_F (R505). -/
def State.pairIsRdF (s : State) : Bool :=
  match decode s.plat.supplement s.pair with
  | some (.rdF ra) => ra != 31
  | _ => false

/-- The other slot of the pair holds a lock store (R505). -/
def State.pairIsLockStore (s : State) : Bool :=
  match decode s.plat.supplement s.pair with
  | some (.lstw _ _ _) => true
  | some (.lstl _ _ _) => true
  | _ => false

/-- A lock store belongs in slot 0 or 2, a non-null RD_F right after it (R505). -/
def State.lockStoreIllegal (s : State) : Option Bool :=
  if !s.pc.getLsbD 2 && s.pairIsRdF then none else some true

/-- RD_F belongs in slot 1 or 3, a lock store right before it (R505). -/
def State.rdFIllegal (s : State) : Option Bool :=
  if s.pc.getLsbD 2 && s.pairIsLockStore then none else some true

/-- A lock access (R504). -/
def State.lockReq (s : State) (va : Word) (n : Nat) (writes : Bool) (v : StoreValue) : MemReq :=
  { va := va, size := n, align := n, reads := !writes, writes := writes, cls := .lock, pm := s.mode, value := v }

/-- The lock state after a lock load of `n` bytes at `pa` (R501). -/
def State.setLock (s : State) (pa : PAddr) (n : Nat) : State :=
  { s with lock := { s.lock with valid := true, addr := pa, size := n, kept := true } }

/-- LLDx: a register 31 is discarded, the lock is set all the same (R501; log 14). -/
def State.execLockLoad (s : State) (ra : Reg) (va : Word) (n : Nat) : Result :=
  s.atDecode none .int
    ((s.check (s.lockReq va n false .none)).andThen fun pa t =>
      let r := t.loadPhys pa n false
      ((r.2.writeReg ra (extendBySize n (r.1.extractLsb' 0 64))).setLock pa n).advance)

/-- The conditions of a lock store that the state decides: bits, address, size, and no write of another agent to the
line since the lock load (R503, R507; log 25). -/
def State.lockHolds (s : State) (pa : PAddr) (n : Nat) : Bool :=
  s.lock.valid && s.lock.flag && s.lock.addr == pa && s.lock.size == n && s.lock.kept

/-- The lock state after a lock store (R503). -/
def State.endLock (s : State) (ok : Bool) : State :=
  { s with lock := { s.lock with valid := false, flag := false, success := ok } }

/-- A lock store once its conditions are known (R503). The value match of a failing one is open (R704). -/
def State.lockStoreAt (s : State) (va : Word) (pa : PAddr) (n : Nat) (v : Word) (ok : Bool) : Result :=
  (s.accessCheck (s.lockReq va n true (if ok then .bytes n v else .free)) pa).andThen fun p t =>
    ((if ok then t.storePhys p n (v.setWidth 256) false else t).endLock ok).advance

/-- LSTx: checks whatever the lock state, then the store if every condition holds; whether the line is in the data
cache and writable is drawn (R503, R504, R507, U12; D23; log 25). -/
def State.execLockStore (s : State) (ra : Reg) (va : Word) (n : Nat) : Result :=
  let q := s.lockReq va n true .free
  s.atDecode s.lockStoreIllegal .int
    (match s.addressCheck q with
    | some t => .next t
    | none =>
      match s.translate q with
      | .ok pa t => t.drawn.lockStoreAt va pa n (s.readReg ra) (t.lockHolds pa n && t.free.getLsbD 0)
      | .trap t => .next t
      | .stuck f => .fault f)


/-- `LLDW` Ra,disp(Rb) (R501). -/
def execLldw (ra rb : Reg) (disp : BitVec 12) (s : State) : Result :=
  s.execLockLoad ra (s.ea12 rb disp) 4

/-- `LLDL` Ra,disp(Rb) (R511). -/
def execLldl (ra rb : Reg) (disp : BitVec 12) (s : State) : Result :=
  s.execLockLoad ra (s.ea12 rb disp) 8

/-- `LSTW` Ra,disp(Rb) (R503). -/
def execLstw (ra rb : Reg) (disp : BitVec 12) (s : State) : Result :=
  s.execLockStore ra (s.ea12 rb disp) 4

/-- `LSTL` Ra,disp(Rb) (R512). -/
def execLstl (ra rb : Reg) (disp : BitVec 12) (s : State) : Result :=
  s.execLockStore ra (s.ea12 rb disp) 8

/-- `WR_F` Ra: lock_flag takes bit 0 (R502). -/
def execWrF (ra : Reg) (s : State) : Result :=
  s.atDecode none .int (.next { s with lock := { s.lock with flag := (s.readReg ra).getLsbD 0 } }.advance)

/-- `RD_F` Ra: null for R31, else lock_success (R508). -/
def execRdF (ra : Reg) (s : State) : Result :=
  if ra = 31 then s.execNull
  else s.atDecode s.rdFIllegal .int (.next (s.writeReg ra (flag s.lock.success 0)).advance)

end Sys2Proof.Machine
end

