-- ==== Sys2Proof/Machine/Control.lean ====
section
/-! DEFINITION. Control transfer (spec/44_control_transfer.md). -/

namespace Sys2Proof.Machine

/-- Every transfer instruction, taken or not, clears lock_valid (R506, R535). -/
def State.breakLock (s : State) : State := { s with lock := { s.lock with valid := false } }

/-- The target match (spec/61_interrupts_platform.md R701). -/
def State.idaMatch (s : State) (t : Word) : Bool :=
  let y : Word := withMode t s.pc
  let m : Word := s.ebox.idaMask &&& 0x1FFFFFFFFFFFFF
  s.ebox.idaMatch.getLsbD 53 && ((y ^^^ s.ebox.idaMatch) &&& m == 0)

/-- A target is close to the PRI_WCSR whose following pc is given. -/
def closeTo (writer : Option Word) (t : Word) : Bool :=
  match writer with
  | some w => Config.idaClose w t
  | none => false

/-- The target matches an address close to a PRI_WCSR that set the match, of IDA_MATCH or of IDA_MASK: whether it is
reported is open (spec/70_reset_and_hazards.md R750, U30; log 58). -/
def State.idaOpen (s : State) (t : Word) : Bool :=
  s.idaMatch t && (closeTo s.idaMatchWriter t || closeTo s.idaMaskWriter t)

/-- The match is reported. -/
def State.idaHit (s : State) (t : Word) : Bool := s.idaMatch t && (!s.idaOpen t || s.free.getLsbD 0)

/-- A transfer to `t` whose target match is made: IACV where it is reported, else the transfer `go`; a free value is
drawn where the report is open. -/
def State.atTarget (s : State) (t : Word) (go : State → State) : State :=
  let u := if s.idaOpen t then s.drawn else s
  if s.idaHit t then u.raiseIdaMatch t else go u

/-- The transfer to `t` made: the mode stays (R521 to R523). -/
def State.transferTo (s : State) (t : Word) : State := { s.breakLock with pc := withMode t s.pc }

/-- The branch not taken (R524). -/
def State.fallThrough (s : State) : State := s.breakLock.advance

/-! ## Shared shapes -/

/-- A jump to R[rb]: the target is read before the link is written; sign check, target match, then the link and the
transfer (R522, R527, R531). -/
def State.execJump (s : State) (ra rb : Reg) : Result :=
  let t := s.readReg rb
  s.atDecode none .int
    (.next (if badSext t then s.raiseBadIva t
      else s.atTarget t fun u => (u.writeReg ra (nextAddr s.pc)).transferTo t))

/-- An unconditional PC-relative branch with a link (R526, R530). -/
def State.execLinkBranch (s : State) (ra : Reg) (d : BitVec 21) : Result :=
  let t := branchTarget s.pc d
  s.atDecode none .int
    (.next (s.atTarget t fun u => (u.writeReg ra (nextAddr s.pc)).transferTo t))

/-- An integer conditional branch; one not taken makes no target match (R524, R531). -/
def State.execCondBranch (s : State) (taken : Bool) (d : BitVec 21) : Result :=
  let t := branchTarget s.pc d
  s.atDecode none .int
    (.next (if taken then s.atTarget t fun u => u.transferTo t else s.fallThrough))

/-- A floating-point conditional branch on the double in F[fa]: FEN, no target match (R520, R530). -/
def State.execFpBranch (s : State) (fa : Reg) (taken : Word → Bool) (d : BitVec 21) : Result :=
  let x := s.useF fa .double
  s.atDecode none .fp (.next (if taken x.1 then x.2.transferTo (branchTarget s.pc d) else x.2.fallThrough))

/-! ## Meanings -/

/-- `CALL` Ra,(Rb); the hint takes no part (R527). -/
def execCall (ra rb : Reg) (_hint : BitVec 16) (s : State) : Result := s.execJump ra rb

/-- `RET` Ra,(Rb); the hint takes no part (R528). -/
def execRet (ra rb : Reg) (_hint : BitVec 16) (s : State) : Result := s.execJump ra rb

/-- `JMP` Ra,(Rb); the hint takes no part (R529). -/
def execJmp (ra rb : Reg) (_hint : BitVec 16) (s : State) : Result := s.execJump ra rb

/-- `BR` Ra,disp21 (R770). -/
def execBr (ra : Reg) (disp : BitVec 21) (s : State) : Result := s.execLinkBranch ra disp

/-- `BSR` Ra,disp21 (R526). -/
def execBsr (ra : Reg) (disp : BitVec 21) (s : State) : Result := s.execLinkBranch ra disp

/-- When `BEQ` is taken (R524). -/
def beqTaken (a : Word) : Bool := a == 0

/-- `BEQ` Ra,disp21 (R524). -/
def execBeq (ra : Reg) (disp : BitVec 21) (s : State) : Result :=
  s.execCondBranch (beqTaken (s.readReg ra)) disp

/-- When `BNE` is taken (R525). -/
def bneTaken (a : Word) : Bool := a != 0

/-- `BNE` Ra,disp21 (R525). -/
def execBne (ra : Reg) (disp : BitVec 21) (s : State) : Result :=
  s.execCondBranch (bneTaken (s.readReg ra)) disp

/-- When `BLT` is taken (R771). -/
def bltTaken (a : Word) : Bool := a.slt 0

/-- `BLT` Ra,disp21 (R771). -/
def execBlt (ra : Reg) (disp : BitVec 21) (s : State) : Result :=
  s.execCondBranch (bltTaken (s.readReg ra)) disp

/-- When `BLE` is taken (R772). -/
def bleTaken (a : Word) : Bool := a.sle 0

/-- `BLE` Ra,disp21 (R772). -/
def execBle (ra : Reg) (disp : BitVec 21) (s : State) : Result :=
  s.execCondBranch (bleTaken (s.readReg ra)) disp

/-- When `BGT` is taken (R773). -/
def bgtTaken (a : Word) : Bool := !a.sle 0

/-- `BGT` Ra,disp21 (R773). -/
def execBgt (ra : Reg) (disp : BitVec 21) (s : State) : Result :=
  s.execCondBranch (bgtTaken (s.readReg ra)) disp

/-- When `BGE` is taken (R774). -/
def bgeTaken (a : Word) : Bool := !a.slt 0

/-- `BGE` Ra,disp21 (R774). -/
def execBge (ra : Reg) (disp : BitVec 21) (s : State) : Result :=
  s.execCondBranch (bgeTaken (s.readReg ra)) disp

/-- When `BLBC` is taken (R775). -/
def blbcTaken (a : Word) : Bool := !a.getLsbD 0

/-- `BLBC` Ra,disp21 (R775). -/
def execBlbc (ra : Reg) (disp : BitVec 21) (s : State) : Result :=
  s.execCondBranch (blbcTaken (s.readReg ra)) disp

/-- When `BLBS` is taken (R776). -/
def blbsTaken (a : Word) : Bool := a.getLsbD 0

/-- `BLBS` Ra,disp21 (R776). -/
def execBlbs (ra : Reg) (disp : BitVec 21) (s : State) : Result :=
  s.execCondBranch (blbsTaken (s.readReg ra)) disp

/-- A double is a zero of either sign (R530). -/
def fpZero (a : Word) : Bool := a &&& 0x7FFFFFFFFFFFFFFF == 0

/-- The sign bit of a double (R530). -/
def fpSign (a : Word) : Bool := a.getLsbD 63

/-- When `FBEQ` is taken (R777). -/
def fbeqTaken (a : Word) : Bool := fpZero a

/-- `FBEQ` Fa,disp21 (R777). -/
def execFbeq (fa : Reg) (disp : BitVec 21) (s : State) : Result :=
  s.execFpBranch fa fbeqTaken disp

/-- When `FBNE` is taken (R778). -/
def fbneTaken (a : Word) : Bool := !fpZero a

/-- `FBNE` Fa,disp21 (R778). -/
def execFbne (fa : Reg) (disp : BitVec 21) (s : State) : Result :=
  s.execFpBranch fa fbneTaken disp

/-- When `FBLT` is taken (R779). -/
def fbltTaken (a : Word) : Bool := fpSign a && !fpZero a

/-- `FBLT` Fa,disp21 (R779). -/
def execFblt (fa : Reg) (disp : BitVec 21) (s : State) : Result :=
  s.execFpBranch fa fbltTaken disp

/-- When `FBLE` is taken (R780). -/
def fbleTaken (a : Word) : Bool := fpSign a || fpZero a

/-- `FBLE` Fa,disp21 (R780). -/
def execFble (fa : Reg) (disp : BitVec 21) (s : State) : Result :=
  s.execFpBranch fa fbleTaken disp

/-- When `FBGT` is taken (R781). -/
def fbgtTaken (a : Word) : Bool := !fpSign a && !fpZero a

/-- `FBGT` Fa,disp21 (R781). -/
def execFbgt (fa : Reg) (disp : BitVec 21) (s : State) : Result :=
  s.execFpBranch fa fbgtTaken disp

/-- When `FBGE` is taken (R782). -/
def fbgeTaken (a : Word) : Bool := !fpSign a || fpZero a

/-- `FBGE` Fa,disp21 (R782). -/
def execFbge (fa : Reg) (disp : BitVec 21) (s : State) : Result :=
  s.execFpBranch fa fbgeTaken disp

end Sys2Proof.Machine
end

