-- ==== Sys2Proof/Machine/Flags.lean ====
section
/-! DEFINITION. Every flag computation: integer overflow, the floating-point exceptions of an addition, their FPCR
flags, traps and EXC_SUM bits (spec/13_fpcr.md, spec/60_exceptions.md R621 to R629). -/

namespace Sys2Proof.Machine

/-! ## Integer overflow (R539, R622) -/

/-- An exact result does not fit `n` signed bits. -/
def overflows (n : Nat) (r : Int) : Bool := decide (r < -(2 ^ (n - 1) : Nat)) || decide ((2 ^ (n - 1) : Nat) ≤ r)

/-- The low 32 bits as a signed number. -/
def s32 (a : Word) : Int := (a.extractLsb' 0 32).toInt

/-- The exact result of an operation of parameter INT_OVERFLOW_DETECT does not fit its width. -/
def IntOp.overflow (op : IntOp) (a b : Word) : Bool :=
  match op with
  | .addw => overflows 32 (s32 a + s32 b)
  | .subw => overflows 32 (s32 a - s32 b)
  | .mulw => overflows 32 (s32 a * s32 b)
  | .addl => overflows 64 (a.toInt + b.toInt)
  | .subl => overflows 64 (a.toInt - b.toInt)
  | .mull => overflows 64 (a.toInt * b.toInt)

/-- The integer overflow trap is taken: the platform says the operation detects it, it overflows, and ICR[FD] = 0
(R539, R622; D26; log 55). -/
def State.intTrap (s : State) (op : IntOp) (a b : Word) : Bool :=
  s.plat.intOverflow.contains op && op.overflow a b && !s.ebox.icr.getLsbD 0

/-- EXC_SUM bits of an integer overflow: OVI0 and INT (R622). -/
def oviBits : Word := flag true 6 ||| flag true 7

/-! ## FPCR (R190 to R198) -/

/-- FPCR[EXC_CTL]. -/
def excCtl (f : Word) : BitVec 2 := f.extractLsb' 0 2
/-- FPCR[DYN]. -/
def dyn (f : Word) : BitVec 2 := f.extractLsb' 58 2
/-- FPCR[INED]. -/
def ined (f : Word) : Bool := f.getLsbD 62
/-- FPCR[UNFD]. -/
def unfd (f : Word) : Bool := f.getLsbD 61
/-- FPCR[UNFZ]. -/
def unfz (f : Word) : Bool := f.getLsbD 60
/-- FPCR[OVFD]. -/
def ovfd (f : Word) : Bool := f.getLsbD 51
/-- FPCR[INVD]. -/
def invd (f : Word) : Bool := f.getLsbD 49
/-- FPCR[DNZ]. -/
def dnz (f : Word) : Bool := f.getLsbD 48

/-- The bits WFPCR stores: [62:48], [40:36], [24:20], [8:4] (R191, R194, R198; log 54). -/
def fpcrMask : Word := 0x7FFF01F001F001F0

/-- The exception flags, whose OR is SUM (R195). -/
def fpcrFlagMask : Word := 0x03F003F003F003F0

/-- FPCR as read: SUM computed (R195; D13). -/
def fpcrRead (f : Word) : Word := (f &&& 0x7FFFFFFFFFFFFFFF) ||| flag (f &&& fpcrFlagMask != 0) 63

/-- FPCR after WFPCR (R198). -/
def fpcrWrite (f d : Word) : Word := (f &&& 3) ||| (d &&& fpcrMask)

/-- FPCR after SETFPECn (R198). -/
def fpcrSetExcCtl (f : Word) (n : BitVec 2) : Word := (f &&& ~~~(3 : Word)) ||| n.setWidth 64

/-! ## Floating-point exceptions of one 64-bit element -/

/-- The exceptions an addition can raise (R562). -/
structure FpFlags where
  inv : Bool := false
  ovf : Bool := false
  unf : Bool := false
  ine : Bool := false
  deriving DecidableEq, Repr

/-- No exception. -/
def FpFlags.none (x : FpFlags) : Bool := !(x.inv || x.ovf || x.unf || x.ine)

/-- Five consecutive bits INV, DZE, OVF, UNF, INE from bit `i`: the layout of the groups of FPCR and EXC_SUM. -/
def FpFlags.bitsAt (x : FpFlags) (i : Nat) : Word := flag x.inv i ||| flag x.ovf (i + 2) ||| flag x.unf (i + 3) ||| flag x.ine (i + 4)

/-- The lowest bit of element `e`'s group in FPCR (R194). -/
def fpcrGroup (e : Nat) : Nat := 52 - 16 * e

/-- The lowest bit of element `e`'s group in EXC_SUM (R100, R629). -/
def excSumGroup (e : Nat) : Nat := if e = 0 then 1 else 9 + 6 * e

/-- The traps that the exceptions cause under FPCR (R202, R623 to R628; D12). -/
def fpTraps (f : Word) (x : FpFlags) : FpFlags :=
  let c := excCtl f
  { inv := x.inv && (c.getLsbD 1 || !invd f)
    ovf := x.ovf && (c.getLsbD 1 || !ovfd f)
    unf := x.unf && (c == 2 || (!c.getLsbD 1 && (!unfd f || !unfz f)))
    ine := x.ine && (c == 0 && !ined f) }

/-! ## IEEE 754 binary64 addition (R562) -/

/-- The exponent field. -/
def dExp (x : Word) : Nat := (x.extractLsb' 52 11).toNat
/-- The fraction field. -/
def dFrac (x : Word) : Nat := (x.extractLsb' 0 52).toNat
/-- The sign bit. -/
def dSign (x : Word) : Bool := x.getLsbD 63
/-- A NaN. -/
def isNan (x : Word) : Bool := dExp x == 2047 && dFrac x != 0
/-- An infinity. -/
def isInf (x : Word) : Bool := dExp x == 2047 && dFrac x == 0
/-- A denormal. -/
def isDen (x : Word) : Bool := dExp x == 0 && dFrac x != 0
/-- A denormal becomes the zero of its sign (R191 DNZ). -/
def denToZero (x : Word) : Word := if isDen x then x &&& 0x8000000000000000 else x

/-- A finite double as an exact multiple of 2^-1074. -/
def exactValue (x : Word) : Int :=
  let m : Nat := if dExp x = 0 then dFrac x else (2 ^ 52 + dFrac x) * 2 ^ (dExp x - 1)
  if dSign x then -m else m

/-- The magnitude is rounded away from zero: `rem` of `2^shift` is cut off, `odd` is the last kept bit (R191 DYN:
0 toward zero, 1 toward minus infinity, 2 to nearest, 3 toward plus infinity). -/
def roundsUp (mode : BitVec 2) (neg odd : Bool) (rem shift : Nat) : Bool :=
  match mode.toNat with
  | 0 => false
  | 1 => neg && rem != 0
  | 2 => decide (2 ^ shift < 2 * rem) || (2 * rem == 2 ^ shift && rem != 0 && odd)
  | _ => !neg && rem != 0

/-- The double with a sign, a biased exponent and a fraction. -/
def mkDouble (neg : Bool) (exp frac : Nat) : Word :=
  flag neg 63 ||| (BitVec.ofNat 64 exp <<< 52) ||| BitVec.ofNat 64 frac

/-- The result of overflow: infinity, or the largest finite number where rounding points to zero (R203). -/
def overflowResult (mode : BitVec 2) (neg : Bool) : Word :=
  let toInf := mode == 2 || (mode == 1 && neg) || (mode == 3 && !neg)
  if toInf then mkDouble neg 2047 0 else mkDouble neg 2046 (2 ^ 52 - 1)

/-- Round a non-zero exact multiple of 2^-1074. A magnitude below the smallest normal number underflows to true zero
(R191 UNFZ, R624); every sum of doubles that small is exact, so the test before rounding is the one after it. -/
def roundExact (mode : BitVec 2) (v : Int) : Word × FpFlags :=
  let n := v.natAbs
  let neg := decide (v < 0)
  if n < 2 ^ 52 then (0, { unf := true, ine := true })
  else
    let shift := Nat.log2 n - 52
    let q := n >>> shift
    let rem := n - q <<< shift
    let q' := if roundsUp mode neg (q % 2 == 1) rem shift then q + 1 else q
    let exp := if q' = 2 ^ 53 then shift + 2 else shift + 1
    let frac := if q' = 2 ^ 53 then 0 else q' - 2 ^ 52
    if 2047 ≤ exp then (overflowResult mode neg, { ovf := true, ine := true })
    else (mkDouble neg exp frac, { ine := rem != 0 })

/-- A quiet NaN whose sign and bits [50:0] are free (log 46). -/
def freeNan (f : Word) : Word := f ||| 0x7FF8000000000000

/-- The sum of two doubles of which one is a NaN or an infinity (R562, R203). -/
def nonFiniteSum (a b free : Word) : Word :=
  if isNan a || isNan b || (isInf a && isInf b && dSign a != dSign b) then freeNan free
  else if isInf a then a
  else b

/-- The sum of two doubles, with its exceptions (R562). INV is set for every non-finite operand, as the
field table of R194 says; the IEEE 754 list that R562 and R623 recall has a signalling NaN and infinity minus infinity only:
by the order of precedence of spec/90_conflicts.md (1) the table holds, DEDUCED (log 63). An exact zero sum of different signs
is +0, or -0 when rounding toward minus infinity. -/
def addDouble (mode : BitVec 2) (a b free : Word) : Word × FpFlags :=
  if dExp a == 2047 || dExp b == 2047 then (nonFiniteSum a b free, { inv := true })
  else
    let v := exactValue a + exactValue b
    if v = 0 then
      (mkDouble (if dSign a == dSign b then dSign a else mode == 1) 0 0, {})
    else roundExact mode v

/-- What an addition of one element does: its result, its FPCR flags, its traps. -/
structure FpOutcome where
  value : Word
  flags : FpFlags
  traps : FpFlags
  deriving DecidableEq, Repr

/-- An operand as the addition takes it: with DNZ = 1 a denormal counts as the zero of its sign (R191, R196). -/
def fpOperand (f x : Word) : Word := if dnz f then denToZero x else x

/-- One element's addition under FPCR: the rounded sum of the operands (R562). A denormal operand traps, as INV alone, and leaves
FPCR as it is when EXC_CTL[1] = 1 or DNZ = 0 (R623); the sum is the result all the same (R203; log 46). -/
def fpAdd (f a b free : Word) : FpOutcome :=
  let r := addDouble (dyn f) (fpOperand f a) (fpOperand f b) free
  if (isDen a || isDen b) && ((excCtl f).getLsbD 1 || !dnz f) then
    { value := r.1, flags := {}, traps := { inv := true } }
  else { value := r.1, flags := r.2, traps := fpTraps f r.2 }

end Sys2Proof.Machine
end

