-- ==== Sys2Proof/Machine/Float.lean ====
section
/-! DEFINITION. Floating-point and SIMD operate instructions, register moves, and the FPCR instructions
(spec/45_arithmetic.md sections 2 and 3, spec/41_system_misc.md section 2, spec/13_fpcr.md). -/

namespace Sys2Proof.Machine

/-! ## Completing an addition (R561, R621, R629) -/

/-- The state with FPCR's flags of the instruction set, whatever the masks (R194, R197). -/
def State.orFpcr (s : State) (bits : Word) : State := { s with fpcr := s.fpcr ||| bits }

/-- An enabled trap needs software completion: EXC_CTL[1] = 0 (R193, R621). -/
def swcOf (fpcr : Word) (trap : Bool) : Bool := trap && !(excCtl fpcr).getLsbD 1

/-- What an addition writes for its element `i`: any value where software must complete it (R203, U8) or an operand's data
type did not suit (`mixed`, U16), else the result. -/
def State.written (s : State) (mixed : Bool) (i : Nat) (o : FpOutcome) : Word :=
  if mixed || swcOf s.fpcr (!o.traps.none) then elem s.free i else o.value

/-- FADDD with the outcome of its element: flags, result, next pc, then an enabled trap (R561, R621). -/
def State.finishScalar (s : State) (fc : Reg) (mixed : Bool) (o : FpOutcome) : State :=
  let trap := !o.traps.none
  let t := (((s.orFpcr (o.flags.bitsAt (fpcrGroup 0))).drawn).writeF fc (s.written mixed 0 o) .double).advance
  if trap then t.raiseArith s.pc (o.traps.bitsAt (excSumGroup 0) ||| flag (swcOf s.fpcr trap) 0) fc else t

/-- The bits of four elements' groups joined. -/
def groupBits (place : Nat → Nat) (x0 x1 x2 x3 : FpFlags) : Word :=
  x0.bitsAt (place 0) ||| x1.bitsAt (place 1) ||| x2.bitsAt (place 2) ||| x3.bitsAt (place 3)

/-- VADDD with the outcomes of its four elements, four independent additions: one trap for the instruction; of the destination
the elements that trap are any value where software must complete them, the others keep their sums (R203, R571, R629; vector
F-9 of spec/95_test_vectors.md; DEDUCED, log 46). -/
def State.finishVector (s : State) (fc : Reg) (mixed : Bool) (o0 o1 o2 o3 : FpOutcome) : State :=
  let trap := !(o0.traps.none && o1.traps.none && o2.traps.none && o3.traps.none)
  let v := vec4 (s.written mixed 0 o0) (s.written mixed 1 o1) (s.written mixed 2 o2) (s.written mixed 3 o3)
  let t := (((s.orFpcr (groupBits fpcrGroup o0.flags o1.flags o2.flags o3.flags)).drawn).writeV fc v .double).advance
  if trap then
    t.raiseArith s.pc
      (groupBits excSumGroup o0.traps o1.traps o2.traps o3.traps ||| flag (swcOf s.fpcr trap) 0) fc
  else t

/-- The outcome of element `i` of a sum under the present FPCR (R562, R571). -/
def State.addElem (s : State) (a b : Vec) (i : Nat) : FpOutcome := fpAdd s.fpcr (elem a i) (elem b i) (elem s.free i)

/-! ## Shared shapes -/

/-- A scalar floating-point instruction that writes `v` of kind `k` into F[fc]; null when `fc` is 31 (R358, R560,
R561). -/
def State.execToF (s : State) (fc : Reg) (v : Word) (k : DataKind) : Result :=
  if fc = 31 then s.execNull else s.atDecode none .fp (.next (s.writeF fc v k).advance)

/-- A floating-point instruction that writes F[fa], used as kind `k` and converted, into R[rc]; null when `rc` is 31
(R565). -/
def State.execFToR (s : State) (fa rc : Reg) (k : DataKind) (conv : Word → Word) : Result :=
  let x := s.useF fa k
  if rc = 31 then s.execNull else s.atDecode none .fp (.next (x.2.writeReg rc (conv x.1)).advance)

/-- A SIMD instruction that writes all of V[fc] with data of kind `k`; null when `fc` is 31 (R570). -/
def State.execToV (s : State) (fc : Reg) (v : Vec) (k : DataKind) : Result :=
  if fc = 31 then s.execNull else s.atDecode none .simd (.next (s.writeV fc v k).advance)

/-- SETFPECn (R404, R412 to R414). -/
def State.execSetfpec (s : State) (n : BitVec 2) : Result :=
  s.atDecode none .fp (.next { s with fpcr := fpcrSetExcCtl s.fpcr n }.advance)

/-! ## Arithmetic -/

/-- `FADDD` Fa,Fb,Fc (R562). -/
def execFaddd (fa fb fc : Reg) (s : State) : Result :=
  let a := s.useV fa .double
  let b := a.2.useV fb .double
  let mixed := !(s.suits fa .double && s.suits fb .double)
  if fc = 31 then s.execNull
  else s.atDecode none .fp (.next (b.2.drawn.finishScalar fc mixed (b.2.addElem a.1 b.1 0)))

/-- `VADDD` Fa,Fb,Fc (R571). -/
def execVaddd (fa fb fc : Reg) (s : State) : Result :=
  let a := s.useV fa .double
  let b := a.2.useV fb .double
  let mixed := !(s.suits fa .double && s.suits fb .double)
  let o := b.2.addElem a.1 b.1
  if fc = 31 then s.execNull
  else s.atDecode none .simd (.next (b.2.drawn.finishVector fc mixed (o 0) (o 1) (o 2) (o 3)))

/-! ## Moves between the register files (R565) -/

/-- `IFMOVS` Ra,Fc: the FLDS mapping of the low 32 bits (R566). -/
def execIfmovs (ra fc : Reg) (s : State) : Result := s.execToF fc (fldsConvert ((s.readReg ra).extractLsb' 0 32)) .single

/-- `IFMOVD` Ra,Fc (R567). -/
def execIfmovd (ra fc : Reg) (s : State) : Result := s.execToF fc (s.readReg ra) .image

/-- `FIMOVS` Fa,Rc: the FSTS mapping, sign-extended (R568). -/
def execFimovs (fa rc : Reg) (s : State) : Result := s.execFToR fa rc .single fun v => (fstsConvert v).signExtend 64

/-- `FIMOVD` Fa,Rc (R569). -/
def execFimovd (fa rc : Reg) (s : State) : Result := s.execFToR fa rc .image id

/-! ## FPCR -/

/-- `RFPCR` Fa (R402). -/
def execRfpcr (fa : Reg) (s : State) : Result := s.execToF fa (fpcrRead s.fpcr) .integer

/-- `WFPCR` Fa (R403). -/
def execWfpcr (fa : Reg) (s : State) : Result :=
  let x := s.useF fa .integer
  s.atDecode none .fp (.next { x.2 with fpcr := fpcrWrite s.fpcr x.1 }.advance)

/-- `SETFPEC0` (R404). -/
def execSetfpec0 (s : State) : Result := s.execSetfpec 0

/-- `SETFPEC1` (R412). -/
def execSetfpec1 (s : State) : Result := s.execSetfpec 1

/-- `SETFPEC2` (R413). -/
def execSetfpec2 (s : State) : Result := s.execSetfpec 2

/-- `SETFPEC3` (R414). -/
def execSetfpec3 (s : State) : Result := s.execSetfpec 3

/-! ## SIMD moves: the spec's recalled forms (R572 to R576; log 50) -/

/-- The 64-bit element `i` of a vector replaced. -/
def setElem64 (v : Vec) (i : Nat) (d : Word) : Vec :=
  (v &&& ~~~(((BitVec.allOnes 64).setWidth 256 : Vec) <<< (64 * i))) ||| ((d.setWidth 256 : Vec) <<< (64 * i))

/-- The 32-bit element `i` of a vector replaced. -/
def setElem32 (v : Vec) (i : Nat) (d : BitVec 32) : Vec :=
  (v &&& ~~~(((BitVec.allOnes 32).setWidth 256 : Vec) <<< (32 * i))) ||| ((d.setWidth 256 : Vec) <<< (32 * i))

/-- `VINSF` Fa,Fb,idx,Fc (R572). -/
def execVinsf (fa fb : Reg) (idx : BitVec 2) (fc : Reg) (s : State) : Result :=
  s.execToV fc (setElem64 (s.readV fb) idx.toNat (s.readF fa)) ((s.kindOf fa).join (s.kindOf fb))

/-- `VINSW` Fa,Fb,idx,Fc: integer data (R573, U16). -/
def execVinsw (fa fb : Reg) (idx : BitVec 3) (fc : Reg) (s : State) : Result :=
  let x := s.useF fa .integer
  let y := x.2.useV fb .integer
  if fc = 31 then s.execNull
  else
    s.atDecode none .simd
      (.next (y.2.writeV fc (setElem32 y.1 idx.toNat (x.1.extractLsb' 0 32)) .integer).advance)

/-- `VCPYF` Fb,Fc (R574). -/
def execVcpyf (fb fc : Reg) (s : State) : Result := s.execToV fc (splat64 (s.readF fb)) (s.kindOf fb)

/-- `VEXTF` Fa,idx,Fc: the result goes to F[fc], bits [255:64] become free (R575). -/
def execVextf (fa : Reg) (idx : BitVec 2) (fc : Reg) (s : State) : Result :=
  if fc = 31 then s.execNull
  else s.atDecode none .simd (.next (s.writeF fc (elem (s.readV fa) idx.toNat) (s.kindOf fa)).advance)

/-- Element `i` (32 bits) of a vector. -/
def elem32 (v : Vec) (i : Nat) : BitVec 32 := v.extractLsb' (32 * i) 32

/-- What VEXTW writes: the element in register format or its 32 bits as they are, which of the two is drawn: the spec
does not say whether it converts (R576; log 50). -/
def vextwValue (w : BitVec 32) (converts : Bool) : Word := if converts then fldsConvert w else w.setWidth 64

/-- `VEXTW` Fa,idx,Fc (R576). It works on integers, as the other W forms, DESIGN CHOICE (R30, U16; log 59). -/
def execVextw (fa : Reg) (idx : BitVec 3) (fc : Reg) (s : State) : Result :=
  let x := s.useV fa .integer
  let c := x.2.free.getLsbD 0
  let v := vextwValue (elem32 x.1 idx.toNat) c
  if fc = 31 then s.execNull
  else s.atDecode none .simd (.next (x.2.drawn.writeF fc v (if c then .single else .integer)).advance)

end Sys2Proof.Machine
end

