-- ==== Sys2Proof/Machine/Integer.lean ====
section
/-! DEFINITION. The integer operate instructions and the address loads (spec/45_arithmetic.md section 1). -/

namespace Sys2Proof.Machine

/-! ## Results -/

/-- 1 for true, 0 for false (R549 to R553). -/
def truth (p : Bool) : Word := if p then 1 else 0

/-- ADDW: the low 32 bits of the sum, sign-extended (R542). -/
def addwValue (a b : Word) : Word := sextW (a + b)

/-- SUBW: the low 32 bits of the difference, sign-extended (R543). -/
def subwValue (a b : Word) : Word := sextW (a - b)

/-- ADDL: the sum modulo 2^64 (R544). -/
def addlValue (a b : Word) : Word := a + b

/-- SUBL: the difference modulo 2^64 (R545). -/
def sublValue (a b : Word) : Word := a - b

/-- MULW: the low 32 bits of the product, sign-extended (R546). -/
def mulwValue (a b : Word) : Word := sextW (a * b)

/-- MULL: the low 64 bits of the product (R547). -/
def mullValue (a b : Word) : Word := a * b

/-- UMULH: the high 64 bits of the unsigned product (R548). -/
def umulhValue (a b : Word) : Word := ((a.setWidth 128 * b.setWidth 128 : BitVec 128) >>> 64).setWidth 64

/-- CMPEQ: 1 when equal, else 0 (R549). -/
def cmpeqValue (a b : Word) : Word := truth (a == b)

/-- CMPLT: 1 when less, signed, else 0 (R550). -/
def cmpltValue (a b : Word) : Word := truth (a.slt b)

/-- CMPLE: 1 when less or equal, signed, else 0 (R551). -/
def cmpleValue (a b : Word) : Word := truth (a.sle b)

/-- CMPULT: 1 when less, unsigned, else 0 (R552). -/
def cmpultValue (a b : Word) : Word := truth (a.ult b)

/-- CMPULE: 1 when less or equal, unsigned, else 0 (R553). -/
def cmpuleValue (a b : Word) : Word := truth (a.ule b)

/-- AND: a AND b (R554). -/
def andValue (a b : Word) : Word := a &&& b

/-- BIC: a AND NOT b (R555). -/
def bicValue (a b : Word) : Word := a &&& ~~~b

/-- BIS: a OR b (R556). -/
def bisValue (a b : Word) : Word := a ||| b

/-- ORNOT: a OR NOT b (R557). -/
def ornotValue (a b : Word) : Word := a ||| ~~~b

/-- XOR: a XOR b (R558). -/
def xorValue (a b : Word) : Word := a ^^^ b

/-- EQV: a XOR NOT b (R559). -/
def eqvValue (a b : Word) : Word := a ^^^ ~~~b

/-- LDI: base plus signed displacement (R540). -/
def ldiValue (b : Word) (d : BitVec 16) : Word := b + d.signExtend 64

/-- LDIH: base plus signed displacement times 2^16 (R541). -/
def ldihValue (b : Word) (d : BitVec 16) : Word := b + (d.signExtend 64 <<< 16)

/-! ## The shared shape -/

/-- An integer instruction that writes `v` into `rc`: null when `rc` is 31 (R358, R538); else it writes and advances,
and an enabled overflow then takes the ARITH trap, EXC_SUM[REG] the destination (R539, R621, R622). -/
def State.execOperate (s : State) (rc : Reg) (v : Word) (trap : Bool) : Result :=
  if rc = 31 then s.execNull
  else
    let t := (s.writeReg rc v).advance
    s.atDecode none .int (.next (if trap then t.raiseArith s.pc oviBits rc else t))

/-! ## Meanings -/

/-- `ADDW` Ra,Rb,Rc (R542). -/
def execAddw (ra rb rc : Reg) (s : State) : Result :=
  s.execOperate rc (addwValue (s.readReg ra) (s.readReg rb)) (s.intTrap .addw (s.readReg ra) (s.readReg rb))

/-- `ADDW` Ra,lit,Rc (R542). -/
def execAddwL (ra : Reg) (lit : BitVec 8) (rc : Reg) (s : State) : Result :=
  s.execOperate rc (addwValue (s.readReg ra) (litValue lit)) (s.intTrap .addw (s.readReg ra) (litValue lit))

/-- `SUBW` Ra,Rb,Rc (R543). -/
def execSubw (ra rb rc : Reg) (s : State) : Result :=
  s.execOperate rc (subwValue (s.readReg ra) (s.readReg rb)) (s.intTrap .subw (s.readReg ra) (s.readReg rb))

/-- `SUBW` Ra,lit,Rc (R543). -/
def execSubwL (ra : Reg) (lit : BitVec 8) (rc : Reg) (s : State) : Result :=
  s.execOperate rc (subwValue (s.readReg ra) (litValue lit)) (s.intTrap .subw (s.readReg ra) (litValue lit))

/-- `ADDL` Ra,Rb,Rc (R544). -/
def execAddl (ra rb rc : Reg) (s : State) : Result :=
  s.execOperate rc (addlValue (s.readReg ra) (s.readReg rb)) (s.intTrap .addl (s.readReg ra) (s.readReg rb))

/-- `ADDL` Ra,lit,Rc (R544). -/
def execAddlL (ra : Reg) (lit : BitVec 8) (rc : Reg) (s : State) : Result :=
  s.execOperate rc (addlValue (s.readReg ra) (litValue lit)) (s.intTrap .addl (s.readReg ra) (litValue lit))

/-- `SUBL` Ra,Rb,Rc (R545). -/
def execSubl (ra rb rc : Reg) (s : State) : Result :=
  s.execOperate rc (sublValue (s.readReg ra) (s.readReg rb)) (s.intTrap .subl (s.readReg ra) (s.readReg rb))

/-- `SUBL` Ra,lit,Rc (R545). -/
def execSublL (ra : Reg) (lit : BitVec 8) (rc : Reg) (s : State) : Result :=
  s.execOperate rc (sublValue (s.readReg ra) (litValue lit)) (s.intTrap .subl (s.readReg ra) (litValue lit))

/-- `MULW` Ra,Rb,Rc (R546). -/
def execMulw (ra rb rc : Reg) (s : State) : Result :=
  s.execOperate rc (mulwValue (s.readReg ra) (s.readReg rb)) (s.intTrap .mulw (s.readReg ra) (s.readReg rb))

/-- `MULW` Ra,lit,Rc (R546). -/
def execMulwL (ra : Reg) (lit : BitVec 8) (rc : Reg) (s : State) : Result :=
  s.execOperate rc (mulwValue (s.readReg ra) (litValue lit)) (s.intTrap .mulw (s.readReg ra) (litValue lit))

/-- `MULL` Ra,Rb,Rc (R547). -/
def execMull (ra rb rc : Reg) (s : State) : Result :=
  s.execOperate rc (mullValue (s.readReg ra) (s.readReg rb)) (s.intTrap .mull (s.readReg ra) (s.readReg rb))

/-- `MULL` Ra,lit,Rc (R547). -/
def execMullL (ra : Reg) (lit : BitVec 8) (rc : Reg) (s : State) : Result :=
  s.execOperate rc (mullValue (s.readReg ra) (litValue lit)) (s.intTrap .mull (s.readReg ra) (litValue lit))

/-- `UMULH` Ra,Rb,Rc (R548). -/
def execUmulh (ra rb rc : Reg) (s : State) : Result :=
  s.execOperate rc (umulhValue (s.readReg ra) (s.readReg rb)) false

/-- `UMULH` Ra,lit,Rc (R548). -/
def execUmulhL (ra : Reg) (lit : BitVec 8) (rc : Reg) (s : State) : Result :=
  s.execOperate rc (umulhValue (s.readReg ra) (litValue lit)) false

/-- `CMPEQ` Ra,Rb,Rc (R549). -/
def execCmpeq (ra rb rc : Reg) (s : State) : Result :=
  s.execOperate rc (cmpeqValue (s.readReg ra) (s.readReg rb)) false

/-- `CMPEQ` Ra,lit,Rc (R549). -/
def execCmpeqL (ra : Reg) (lit : BitVec 8) (rc : Reg) (s : State) : Result :=
  s.execOperate rc (cmpeqValue (s.readReg ra) (litValue lit)) false

/-- `CMPLT` Ra,Rb,Rc (R550). -/
def execCmplt (ra rb rc : Reg) (s : State) : Result :=
  s.execOperate rc (cmpltValue (s.readReg ra) (s.readReg rb)) false

/-- `CMPLT` Ra,lit,Rc (R550). -/
def execCmpltL (ra : Reg) (lit : BitVec 8) (rc : Reg) (s : State) : Result :=
  s.execOperate rc (cmpltValue (s.readReg ra) (litValue lit)) false

/-- `CMPLE` Ra,Rb,Rc (R551). -/
def execCmple (ra rb rc : Reg) (s : State) : Result :=
  s.execOperate rc (cmpleValue (s.readReg ra) (s.readReg rb)) false

/-- `CMPLE` Ra,lit,Rc (R551). -/
def execCmpleL (ra : Reg) (lit : BitVec 8) (rc : Reg) (s : State) : Result :=
  s.execOperate rc (cmpleValue (s.readReg ra) (litValue lit)) false

/-- `CMPULT` Ra,Rb,Rc (R552). -/
def execCmpult (ra rb rc : Reg) (s : State) : Result :=
  s.execOperate rc (cmpultValue (s.readReg ra) (s.readReg rb)) false

/-- `CMPULT` Ra,lit,Rc (R552). -/
def execCmpultL (ra : Reg) (lit : BitVec 8) (rc : Reg) (s : State) : Result :=
  s.execOperate rc (cmpultValue (s.readReg ra) (litValue lit)) false

/-- `CMPULE` Ra,Rb,Rc (R553). -/
def execCmpule (ra rb rc : Reg) (s : State) : Result :=
  s.execOperate rc (cmpuleValue (s.readReg ra) (s.readReg rb)) false

/-- `CMPULE` Ra,lit,Rc (R553). -/
def execCmpuleL (ra : Reg) (lit : BitVec 8) (rc : Reg) (s : State) : Result :=
  s.execOperate rc (cmpuleValue (s.readReg ra) (litValue lit)) false

/-- `AND` Ra,Rb,Rc (R554). -/
def execAnd (ra rb rc : Reg) (s : State) : Result :=
  s.execOperate rc (andValue (s.readReg ra) (s.readReg rb)) false

/-- `AND` Ra,lit,Rc (R554). -/
def execAndL (ra : Reg) (lit : BitVec 8) (rc : Reg) (s : State) : Result :=
  s.execOperate rc (andValue (s.readReg ra) (litValue lit)) false

/-- `BIC` Ra,Rb,Rc (R555). -/
def execBic (ra rb rc : Reg) (s : State) : Result :=
  s.execOperate rc (bicValue (s.readReg ra) (s.readReg rb)) false

/-- `BIC` Ra,lit,Rc (R555). -/
def execBicL (ra : Reg) (lit : BitVec 8) (rc : Reg) (s : State) : Result :=
  s.execOperate rc (bicValue (s.readReg ra) (litValue lit)) false

/-- `BIS` Ra,Rb,Rc (R556). -/
def execBis (ra rb rc : Reg) (s : State) : Result :=
  s.execOperate rc (bisValue (s.readReg ra) (s.readReg rb)) false

/-- `BIS` Ra,lit,Rc (R556). -/
def execBisL (ra : Reg) (lit : BitVec 8) (rc : Reg) (s : State) : Result :=
  s.execOperate rc (bisValue (s.readReg ra) (litValue lit)) false

/-- `ORNOT` Ra,Rb,Rc (R557). -/
def execOrnot (ra rb rc : Reg) (s : State) : Result :=
  s.execOperate rc (ornotValue (s.readReg ra) (s.readReg rb)) false

/-- `ORNOT` Ra,lit,Rc (R557). -/
def execOrnotL (ra : Reg) (lit : BitVec 8) (rc : Reg) (s : State) : Result :=
  s.execOperate rc (ornotValue (s.readReg ra) (litValue lit)) false

/-- `XOR` Ra,Rb,Rc (R558). -/
def execXor (ra rb rc : Reg) (s : State) : Result :=
  s.execOperate rc (xorValue (s.readReg ra) (s.readReg rb)) false

/-- `XOR` Ra,lit,Rc (R558). -/
def execXorL (ra : Reg) (lit : BitVec 8) (rc : Reg) (s : State) : Result :=
  s.execOperate rc (xorValue (s.readReg ra) (litValue lit)) false

/-- `EQV` Ra,Rb,Rc (R559). -/
def execEqv (ra rb rc : Reg) (s : State) : Result :=
  s.execOperate rc (eqvValue (s.readReg ra) (s.readReg rb)) false

/-- `EQV` Ra,lit,Rc (R559). -/
def execEqvL (ra : Reg) (lit : BitVec 8) (rc : Reg) (s : State) : Result :=
  s.execOperate rc (eqvValue (s.readReg ra) (litValue lit)) false

/-- `NOP`, the word of BIS R31,R31,R31: a null instruction (spec/41_system_misc.md R406). -/
def execNop (s : State) : Result := s.execNull

/-- `LDI` Ra,disp16(Rb) (R540). -/
def execLdi (ra rb : Reg) (disp : BitVec 16) (s : State) : Result :=
  s.execOperate ra (ldiValue (s.readReg rb) disp) false

/-- `LDIH` Ra,disp16(Rb) (R541). -/
def execLdih (ra rb : Reg) (disp : BitVec 16) (s : State) : Result :=
  s.execOperate ra (ldihValue (s.readReg rb) disp) false

end Sys2Proof.Machine
end

