-- ==== Sys2Proof/Machine/Csr.lean ====
section
/-! DEFINITION. The control and status registers: what PRI_RCSR reads and what PRI_WCSR writes at each index
(spec/10_state.md R35 to R43, spec/11_csr_ibox.md, spec/12_csr_dbox_sbox_ebox.md). -/

namespace Sys2Proof.Machine

/-- The registers of R40 to R43, by what an access does. -/
inductive Csr where
  | itbTag | itbPte | itbIa | itbIv | itbIvp | itbIu | itbIs | ivaForm | ptbr | iiEr | ii0 | excSum | excPc | iiClr
  | priBase | isCtl | issueCtl | isStat | icFlush | vptBase | vpcr | iaMatch | iaMask | ii1 | iiMail | intVec
  /-- UPCR; `writeUpn` and `writeEnables` are index bits 1 and 0 (R109). -/
  | upcr (writeUpn writeEnables : Bool)
  | pc0Cr | pc1Cr | hserrCnt | hserrTh | iglInst | softErr | timerCtl | timerTh
  | intStat (k : Fin 4) | intClr (k : Fin 4) | ier (k : Fin 4) | hardErr
  | dtbTag | dtbPte | dtbIa | dtbIv | dtbIvp | dtbIu | dtbIs | dtbPcr | dsStat | dsCtl | dcCtl | dcStat
  | daMatch | daMask | dva | dvaForm | daMatchMode | dvMask | dvMatch
  | scCtl | scStat | intReq | cpCtl | mergeOvtime
  | iva | tc | tcCtl | icr | cid | idaMatch | idaMask | tid
  | softcsr (k : Fin 48)
  /-- An index no table defines (R36). -/
  | undefined
  deriving DecidableEq, Repr

/-- The register of an index (R40 to R43). -/
def csrOf (idx : BitVec 8) : Csr :=
  match idx.toNat with
  | 0x00 => .itbTag
  | 0x01 => .itbPte
  | 0x02 => .itbIa
  | 0x03 => .itbIv
  | 0x04 => .itbIvp
  | 0x05 => .itbIu
  | 0x06 => .itbIs
  | 0x07 => .ivaForm
  | 0x08 => .ptbr
  | 0x09 => .iiEr
  | 0x0A => .ii0
  | 0x0D => .excSum
  | 0x0E => .excPc
  | 0x0F => .iiClr
  | 0x10 => .priBase
  | 0x11 => .isCtl
  | 0x13 => .issueCtl
  | 0x14 => .isStat
  | 0x15 => .icFlush
  | 0x17 => .vptBase
  | 0x19 => .vpcr
  | 0x1A => .iaMatch
  | 0x1B => .iaMask
  | 0x1C => .ii1
  | 0x1D => .iiMail
  | 0x1F => .intVec
  | 0x20 => .upcr false false
  | 0x21 => .upcr false true
  | 0x22 => .upcr true false
  | 0x23 => .upcr true true
  | 0x24 => .pc0Cr
  | 0x25 => .pc1Cr
  | 0x26 => .hserrCnt
  | 0x27 => .hserrTh
  | 0x28 => .iglInst
  | 0x29 => .softErr
  | 0x2A => .timerCtl
  | 0x2B => .timerTh
  | 0x30 => .intStat 0
  | 0x31 => .intStat 1
  | 0x32 => .intStat 2
  | 0x33 => .intStat 3
  | 0x34 => .intClr 0
  | 0x35 => .intClr 1
  | 0x36 => .intClr 2
  | 0x37 => .intClr 3
  | 0x38 => .ier 0
  | 0x39 => .ier 1
  | 0x3A => .ier 2
  | 0x3B => .ier 3
  | 0x3C => .hardErr
  | 0x40 => .dtbTag
  | 0x41 => .dtbPte
  | 0x42 => .dtbIa
  | 0x43 => .dtbIv
  | 0x44 => .dtbIvp
  | 0x45 => .dtbIu
  | 0x46 => .dtbIs
  | 0x47 => .dtbPcr
  | 0x48 => .dsStat
  | 0x49 => .dsCtl
  | 0x4A => .dcCtl
  | 0x4B => .dcStat
  | 0x4C => .daMatch
  | 0x4D => .daMask
  | 0x4E => .dva
  | 0x4F => .dvaForm
  | 0x50 => .daMatchMode
  | 0x52 => .dvMask
  | 0x53 => .dvMatch
  | 0x80 => .scCtl
  | 0x81 => .scStat
  | 0x82 => .intReq
  | 0x83 => .cpCtl
  | 0x84 => .mergeOvtime
  | 0xC0 => .iva
  | 0xC1 => .tc
  | 0xC2 => .tcCtl
  | 0xC3 => .icr
  | 0xC4 => .cid
  | 0xC5 => .idaMatch
  | 0xC6 => .idaMask
  | 0xC7 => .tid
  | n =>
    if h : 0xE0 ≤ n ∧ n < 0x100 then .softcsr ⟨n - 0xE0, by omega⟩
    else if h : 0xD0 ≤ n ∧ n < 0xE0 then .softcsr ⟨32 + (n - 0xD0), by omega⟩
    else .undefined

/-! ## Reading -/

/-- CID: the written part, zeros, the core's number (R180). -/
def State.cid (s : State) : Word := s.ebox.cidHi ++ (0 : BitVec 4) ++ s.plat.coreId

/-- The address of the 8-byte page-table entry that maps an address, in the table based at bits [52:49] of `base`
(R89, R158). -/
def pteAddr (base addr : Word) : Word :=
  ((base.extractLsb' 49 4 ++ ((addr.extractLsb' 52 1).signExtend 6 ++ addr.extractLsb' 13 40 ++ (0 : BitVec 3))
    : BitVec 53)).signExtend 64

/-- Rotate a 10-bit value right (R105). -/
def rotr10 (v : BitVec 10) (k : Nat) : BitVec 10 := v.rotateRight (k % 10)

/-- ISSUE_CTL as read: each half in a rotation phase the spec does not fix (R105, U20; log 38). -/
def State.issueRead (s : State) : Word :=
  (rotr10 (s.ibox.issueCtl.extractLsb' 10 10) (s.free.extractLsb' 0 64).toNat
    ++ rotr10 (s.ibox.issueCtl.extractLsb' 0 10) (s.free.extractLsb' 64 64).toNat : BitVec 20).setWidth 64

/-- The value of a register whose read is a function of the state; none where the value is free (R36, R38). EXC_SUM reads
what the last exception recorded however late the read is: the spec guarantees it in the handler's first instruction
group only and says nothing of later reads, DESIGN CHOICE (R99, R590; log 64). -/
def State.csrValue (s : State) : Csr → Option Word
  | .itbTag | .itbPte | .itbIa | .itbIv | .itbIvp | .itbIu | .itbIs | .iiClr | .icFlush | .intClr _ => none
  | .dtbTag | .dtbPte | .dtbIa | .dtbIv | .dtbIvp | .dtbIu | .dtbIs => none
  | .undefined => none
  | .issueCtl => none
  | .ivaForm => some (pteAddr s.ibox.vptBase s.ibox.excPc)
  | .ptbr => some s.ibox.ptbr
  | .iiEr => some s.ibox.iiEr
  | .ii0 => some (s.ibox.ii0.setWidth 64)
  | .ii1 => some (s.ibox.ii1.setWidth 64)
  | .iiMail => some (s.ibox.iiMail.setWidth 64)
  | .excSum => some s.ibox.excSum
  | .excPc => some s.ibox.excPc
  | .priBase => some s.ibox.priBase
  | .isCtl => some s.ibox.isCtl
  | .isStat => some s.ibox.isStat
  | .vptBase => some s.ibox.vptBase
  | .vpcr => some s.ibox.vpcr
  | .iaMatch => some s.ibox.iaMatch
  | .iaMask => some s.ibox.iaMask
  | .intVec => some s.ibox.intVec
  | .upcr _ _ => some s.ibox.upcr
  | .pc0Cr => some s.ibox.pc0Cr
  | .pc1Cr => some s.ibox.pc1Cr
  | .hserrCnt => some s.ibox.hserrCnt
  | .hserrTh => some s.ibox.hserrTh
  | .iglInst => some s.ibox.iglInst
  | .softErr => some s.ibox.softErr
  | .hardErr => some s.ibox.hardErr
  | .timerCtl => some s.ibox.timerCtl
  | .timerTh => some s.ibox.timerTh
  | .intStat k => some ((s.ibox.pending &&& s.ibox.ier).extractLsb' (64 * k) 64)
  | .ier k => some (s.ibox.ier.extractLsb' (64 * k) 64)
  | .dtbPcr => some s.dbox.dtbPcr
  | .dsStat => some s.dbox.dsStat
  | .dsCtl => some s.dbox.dsCtl
  | .dcCtl => some s.dbox.dcCtl
  | .dcStat => some s.dbox.dcStat
  | .daMatch => some s.dbox.daMatch
  | .daMask => some s.dbox.daMask
  | .dva => some s.dbox.dva
  | .dvaForm => some (pteAddr s.dbox.dsCtl s.dbox.dva)
  | .daMatchMode => some s.dbox.daMatchMode
  | .dvMask => some s.dbox.dvMask
  | .dvMatch => some s.dbox.dvMatch
  | .scCtl => some s.sbox.scCtl
  | .scStat => some s.sbox.scStat
  | .intReq => some s.sbox.intReq
  | .cpCtl => some s.sbox.cpCtl
  | .mergeOvtime => some s.sbox.mergeOvtime
  | .iva => some s.ebox.iva
  | .tc => some s.ebox.tc
  | .tcCtl => some s.ebox.tcCtl
  | .icr => some s.ebox.icr
  | .cid => some s.cid
  | .idaMatch => some s.ebox.idaMatch
  | .idaMask => some s.ebox.idaMask
  | .tid => some s.ebox.tid
  | .softcsr k => some s.ebox.softcsr[k]

/-- An explicit read (spec/40_privileged.md R388). -/
def State.csrRead (s : State) (c : Csr) : Word × State :=
  match s.csrValue c with
  | some v => (v, s)
  | none => if c = .issueCtl then (s.issueRead, s.drawn) else (s.free.extractLsb' 0 64, s.drawn)

/-! ## Writing -/

/-- The written bits of `mask` taken from `d`, the others kept (R80). -/
def maskWrite (old d mask : Word) : Word := (old &&& ~~~mask) ||| (d &&& mask)

/-- A way-enable field is all ones or one-hot (R151, R165). -/
def wayLegal (v : BitVec n) : Bool := v == BitVec.allOnes n || (v != 0 && (v &&& (v - 1)) == 0)

/-- VPT_BASE and DS_CTL keep four bits; VPT_BASE reads their sign extension (R108, R150). -/
def vptbWrite (d : Word) (extend : Bool) : Word :=
  let v := d &&& 0x001E000000000000
  if extend then sext53 v else v

/-- Replace 64 of 256 bits. -/
def setQuarter (w : BitVec 256) (k : Fin 4) (v : Word) : BitVec 256 :=
  (w &&& ~~~((0xFFFFFFFFFFFFFFFF : BitVec 256) <<< (64 * k.val))) ||| ((v.setWidth 256 : BitVec 256) <<< (64 * k.val))

/-- IC_FLUSH: every line goes, and what a MEMB has ordered is no longer visible in the cache (R107, R247; log 26). -/
def State.icFlush (s : State) : State :=
  { s with
    icache := []
    codeHist := s.codeHist.map fun o => if o.stage = .ordered then { o with stage := .flushed } else o }

/-- TIMER_CTL: turning the timer on starts it from 0 (R123, R671). -/
def State.writeTimerCtl (s : State) (d : Word) : State :=
  let starts := !s.ibox.timerCtl.getLsbD 0 && d.getLsbD 0
  { s with
    ibox := { s.ibox with timerCtl := d &&& 1 }
    timerCount := if starts then 0 else s.timerCount
    timerWild := if d.getLsbD 0 && !starts then s.timerWild else false }

/-- TIMER_TH: a write while the timer runs makes its next firing free (R124, U6; log 36). -/
def State.writeTimerTh (s : State) (d : Word) : State :=
  { s with ibox := { s.ibox with timerTh := d }, timerWild := s.timerWild || s.ibox.timerCtl.getLsbD 0 }

/-- INT_REQ: a write while the old request is not sent leaves either (R168, U7; log 37). -/
def State.writeIntReq (s : State) (d : Word) : State :=
  let new := d &&& 0x0380FFFF
  if s.sbox.intReq.getLsbD 25 then
    if s.free.getLsbD 0 then { s.drawn with sbox := { s.sbox with intReq := new } } else s.drawn
  else { s with sbox := { s.sbox with intReq := new } }

/-- SOFT_ERR and HARD_ERR: a 0 to 1 transition is reported outside (R121, R122). -/
def rises (old d : Word) : Bool := !old.getLsbD 0 && d.getLsbD 0

/-- HSERR_CNT: bit 0 clears the counter, bit 32 the overflow flag (R118). -/
def hserrWrite (old d : Word) : Word :=
  let a := if d.getLsbD 0 then old &&& 0xFFFFFFFF00000000 else old
  if d.getLsbD 32 then a &&& 0xFFFFFFFEFFFFFFFF else a

/-- An explicit write of an instruction-unit, data-cache-unit, L2-cache-unit or integer-unit register: RW fields take
the data, WO registers act, RO fields, reserved bits and undefined indices ignore it, W1C and WC clear (R36 to R38,
R80, R140; spec/40_privileged.md R389). A way enable that is neither all ones nor one-hot is refused (U5; log 32). -/
def State.csrWrite (s : State) (c : Csr) (d : Word) : Result :=
  match c with
  | .itbTag => .next { s with ibox := { s.ibox with itbTag := d &&& 0x001FFFFFFFFFE000 } }
  | .itbPte => .next (s.itbFill d)
  | .itbIa => .next { s with itb := [] }
  | .itbIv => .next { s with itb := s.itb.filter fun e => e.vpn != s.vpn }
  | .itbIvp => .next { s with itb := s.itb.filter fun e => !(e.vpn == s.vpn && !e.ks) }
  | .itbIu => .next { s with itb := s.itb.filter fun e => !(e.vpn == s.vpn && e.upn == s.upn && !e.ks) }
  | .itbIs => .next { s with itb := s.itb.filter fun e => !e.hits s.vpn s.upn d }
  | .ivaForm => .next s
  | .ptbr => .next { s with ibox := { s.ibox with ptbr := d &&& 0x0000FFFFFFFFFFFF } }
  | .iiEr => .next { s with ibox := { s.ibox with iiEr := d &&& 7 } }
  | .ii0 | .ii1 | .iiMail | .excSum | .excPc | .iglInst | .dva | .dvaForm | .cpCtl | .iva | .intStat _ => .next s
  | .iiClr =>
    .next { s with ibox := { s.ibox with
      ii0 := s.ibox.ii0 &&& ~~~(d.extractLsb' 0 16), ii1 := s.ibox.ii1 &&& ~~~(d.extractLsb' 16 16) } }
  | .priBase => .next { s with ibox := { s.ibox with priBase := d &&& 0x00007FFFFFFF0000 } }
  | .isCtl => .next { s with ibox := { s.ibox with isCtl := maskWrite s.ibox.isCtl d 0x1FC07 } }
  | .issueCtl => .next { s with ibox := { s.ibox with issueCtl := maskWrite s.ibox.issueCtl d 0x7FDFF } }
  | .isStat => .next { s with ibox := { s.ibox with isStat := s.ibox.isStat &&& ~~~d } }
  | .icFlush => .next s.icFlush
  | .vptBase => .next { s with ibox := { s.ibox with vptBase := vptbWrite d true } }
  | .vpcr => .next { s with ibox := { s.ibox with vpcr := d &&& 0x00003FFFFFFFFFFF } }
  | .iaMatch => .next { s with ibox := { s.ibox with iaMatch := d } }
  | .iaMask => .next { s with ibox := { s.ibox with iaMask := d &&& 0x7FFFFFFFFFFFFFFF } }
  | .intVec => .next { s with ibox := { s.ibox with intVec := d &&& 0x0000FFFFFFFFFFFF } }
  | .upcr u e =>
    .next { s with ibox := { s.ibox with
      upcr := maskWrite s.ibox.upcr d ((if u then 0x00007F8000000000 else 0) ||| (if e then 7 else 0)) } }
  | .pc0Cr => .next { s with ibox := { s.ibox with pc0Cr := d &&& 0xF3FFFFFFFFFFFFFF } }
  | .pc1Cr => .next { s with ibox := { s.ibox with pc1Cr := d } }
  | .hserrCnt => .next { s with ibox := { s.ibox with hserrCnt := hserrWrite s.ibox.hserrCnt d } }
  | .hserrTh => .next { s with ibox := { s.ibox with hserrTh := d &&& 0xFFF } }
  | .softErr =>
    let t := { s with ibox := { s.ibox with softErr := d &&& 1 } }
    .next (if rises s.ibox.softErr d then t.send .softwareFault else t)
  | .hardErr =>
    let t := { s with ibox := { s.ibox with hardErr := d &&& 1 } }
    .next (if rises s.ibox.hardErr d then t.send .hardwareFault else t)
  | .timerCtl => .next (s.writeTimerCtl d)
  | .timerTh => .next (s.writeTimerTh d)
  | .intClr k =>
    .next { s with ibox := { s.ibox with
      pending := s.ibox.pending &&& ~~~((d.setWidth 256 : BitVec 256) <<< (64 * k.val)) } }
  | .ier k => .next { s with ibox := { s.ibox with ier := setQuarter s.ibox.ier k d } }
  | .dtbTag => .next { s with dbox := { s.dbox with dtbTag := d &&& 0x001FFFFFFFFFE000 } }
  | .dtbPte => .next (s.dtbFill d)
  | .dtbIa => .next { s with dtb := [] }
  | .dtbIv => .next { s with dtb := s.dtb.filter fun e => e.vpn != s.dtbVpn }
  | .dtbIvp => .next { s with dtb := s.dtb.filter fun e => !(e.vpn == s.dtbVpn && !e.ks) }
  | .dtbIu => .next { s with dtb := s.dtb.filter fun e => !(e.vpn == s.dtbVpn && e.upn == s.dtbUpn && !e.ks) }
  | .dtbIs => .next { s with dtb := s.dtb.filter fun e => !e.hits s.dtbVpn s.dtbUpn d }
  | .dtbPcr => .next { s with dbox := { s.dbox with dtbPcr := d &&& 0xFFC0000000000003 } }
  | .dsStat => .next { s with dbox := { s.dbox with dsStat := 0 } }
  | .dsCtl => .next { s with dbox := { s.dbox with dsCtl := vptbWrite d false } }
  | .dcCtl =>
    if wayLegal (d.extractLsb' 0 4) then
      .next { s with dbox := { s.dbox with dcCtl := d &&& 0xFFFE0000003FF7BF } }
    else .refused .wayEnable
  | .dcStat => .next { s with dbox := { s.dbox with dcStat := s.dbox.dcStat &&& ~~~d } }
  | .daMatch => .next { s with dbox := { s.dbox with daMatch := d &&& 0x00FFFFFFFFFFFFFF } }
  | .daMask => .next { s with dbox := { s.dbox with daMask := d &&& 0x001FFFFFFFFFFFFF } }
  | .daMatchMode => .next { s with dbox := { s.dbox with daMatchMode := d &&& 0x001FFFFFFFFFFFFF } }
  | .dvMask => .next { s with dbox := { s.dbox with dvMask := d } }
  | .dvMatch => .next { s with dbox := { s.dbox with dvMatch := d } }
  | .scCtl =>
    if wayLegal (d.extractLsb' 0 8) then .next { s with sbox := { s.sbox with scCtl := d &&& 0x1FFFFF } }
    else .refused .wayEnable
  | .scStat => .next { s with sbox := { s.sbox with scStat := s.sbox.scStat &&& ~~~d } }
  | .intReq => .next (s.writeIntReq d)
  | .mergeOvtime => .next { s with sbox := { s.sbox with mergeOvtime := d &&& 0xFFFF } }
  | .tc => .next { s with ebox := { s.ebox with tc := d } }
  | .tcCtl => .next { s with ebox := { s.ebox with tcCtl := d &&& 1 } }
  | .icr => .next { s with ebox := { s.ebox with icr := d &&& 1 } }
  | .cid => .next { s with ebox := { s.ebox with cidHi := d.extractLsb' 8 56 } }
  | .idaMatch =>
    .next { s with ebox := { s.ebox with idaMatch := d &&& 0x003FFFFFFFFFFFFF }, idaMatchWriter := some s.pc }
  | .idaMask =>
    .next { s with ebox := { s.ebox with idaMask := d &&& 0x001FFFFFFFFFFFFF }, idaMaskWriter := some s.pc }
  | .tid => .next { s with ebox := { s.ebox with tid := d } }
  | .softcsr k => .next { s with ebox := { s.ebox with softcsr := s.ebox.softcsr.set k d } }
  | .undefined => .next s

end Sys2Proof.Machine
end

