-- ==== Sys2Proof/Machine/Privileged.lean ====
section
/-! DEFINITION. SYS_CALL and the privileged instructions (spec/40_privileged.md). -/

namespace Sys2Proof.Machine

/-! ## SYS_CALL (R382 to R385) -/

/-- The function codes legal in a mode outside HM (R382). -/
def legalLow (fn : BitVec 25) : Mode → Bool
  | .hm => true
  | .vm => decide ((fn.extractLsb' 0 8).toNat < 0xC0)
  | .km => fn.extractLsb' 6 2 == 0 || fn.extractLsb' 6 2 == (2 : BitVec 2)
  | .um => fn.extractLsb' 6 2 == (2 : BitVec 2)

/-- The level bits PC[14:13] of an entry (R383). -/
def sysLevel (fn : BitVec 25) : BitVec 2 :=
  match (fn.extractLsb' 6 2).toNat with
  | 0 => 2
  | 1 => 1
  | _ => 3

/-- The entry of a function code by R383's computation. R335 writes the entry of code 0xBB, the substitute of a word that
could not be fetched, as PRI_BASE + 0xBB x 128 bytes, which is 0x5D80, while this gives 0x7D80: the platform parameter
substituteAsWritten says which the substitute takes, so both readings are covered (log 43). -/
def sysEntry (priBase : Word) (fn : BitVec 25) : Word :=
  entryAddr priBase ((0 : BitVec 1) ++ sysLevel fn ++ fn.extractLsb' 0 6 ++ (0 : BitVec 7))

/-- SYS_CALL taken: SR23 takes the return address with the present mode, the lock bits are cleared, the pc goes to the
entry in HM; no CSR is written (R382; D6, D24). -/
def State.enterSysCall (s : State) (fn : BitVec 25) : State :=
  { s with
    sr := s.sr.set 9 (clearLow2 (s.pc + 4) ||| (s.pc &&& 3))
    lock := { s.lock with valid := false, flag := false }
    pc := sysEntry s.ibox.priBase fn }

/-- SYS_CALL/b taken: the same, and no CSR is written (R382, R384). R699 says in passing that this form writes EXC_PC: it
does, with its own address, only while the platform parameter sysCallBRecordsPc, false by default, is true (log 65). -/
def State.enterSysCallB (s : State) (fn : BitVec 25) : State :=
  let t := s.enterSysCall fn
  if s.plat.sysCallBRecordsPc then { t with ibox := { t.ibox with excPc := sext53 s.pc } } else t

/-- SYS_CALL is illegal: fn[24:8] not zero, or a code not allowed to the mode (R382). -/
def State.sysIllegal (s : State) (fn : BitVec 25) : Option Bool :=
  if fn >>> 8 == 0 && legalLow fn s.mode then none else some false

/-- Both forms: null in HM, else the state `entered` (R382, R385). -/
def State.execSys (s : State) (fn : BitVec 25) (entered : State) : Result :=
  s.atDecode (s.sysIllegal fn) .int (.next (if s.mode = .hm then s.advance else entered))

/-- `SYS_CALL` fn (R382). -/
def execSysCall (fn : BitVec 25) (s : State) : Result := s.execSys fn (s.enterSysCall fn)

/-- `SYS_CALL/b` fn (R384). -/
def execSysCallB (fn : BitVec 25) (s : State) : Result := s.execSys fn (s.enterSysCallB fn)

/-! ## PRI_RET (R386, R387) -/

/-- An instruction barrier: what no cache line holds any more is no longer seen by fetches (R247; log 26). -/
def State.fetchBarrier (s : State) : State :=
  { s with codeHist := s.codeHist.filter fun o => o.stage != .flushed }

/-- `PRI_RET` Ra (R386). The target match with IDA_MATCH is not made: R386 says that whether it counts as a jump for that
check is not stated, DESIGN CHOICE (log 70). -/
def execPriRet (ra : Reg) (s : State) : Result :=
  s.atDecode s.privileged .int (.next (s.priReturn ra (s.readReg ra)))

/-- `PRI_RET/b` Ra: also a barrier for later fetches (R387). The target match as for PRI_RET (log 70). -/
def execPriRetB (ra : Reg) (s : State) : Result :=
  s.atDecode s.privileged .int (.next (s.fetchBarrier.priReturn ra (s.readReg ra)))

/-! ## PRI_RCSR and PRI_WCSR -/

/-- `PRI_RCSR` Ra,idx (R388). -/
def execPriRcsr (ra : Reg) (idx : BitVec 8) (s : State) : Result :=
  let r := s.csrRead (csrOf idx)
  s.atDecode s.privileged .int (.next (r.2.writeReg ra r.1).advance)

/-- `PRI_WCSR` Ra,idx (R389). -/
def execPriWcsr (ra : Reg) (idx : BitVec 8) (s : State) : Result :=
  s.atDecode s.privileged .int (s.advance.csrWrite (csrOf idx) (s.readReg ra))

/-! ## PRI_LD and PRI_ST (R390 to R399, R783) -/

/-- The address of an access of `n` bytes, low bits cleared (R390; D14; log 16). -/
def State.priAddr (s : State) (rb : Reg) (d : BitVec 12) (n : Nat) : Word :=
  s.ea12 rb d &&& ~~~(BitVec.ofNat 64 (n - 1))

/-- An access at a physical address (R391). -/
def MemReq.physical (q : MemReq) : MemReq := { q with phys := true, align := 1 }

/-- An access with the rights of DTB_PCR[PM]; `vpte` for the page-table form (R392). -/
def MemReq.asPm (q : MemReq) (pm : Mode) (vpte : Bool) : MemReq := { q with pm := pm, vpte := vpte, align := 1 }

/-- A privileged load into R[ra] (R391, R392); null in HM when `ra` is 31 (R358, D20; log 14). -/
def State.execPriLoad (s : State) (ra : Reg) (q : MemReq) (n : Nat) : Result :=
  s.atDecode s.privileged .int
    (if ra = 31 then .next s.advance
      else s.execLoad q n fun t v => t.writeReg ra (extendBySize n (v.extractLsb' 0 64)))

/-- A privileged store of the low `n` bytes of R[ra] (R393, R399). -/
def State.execPriStore (s : State) (q : MemReq) (n : Nat) (v : Word) : Result :=
  s.atDecode s.privileged .int (s.execStore q n (v.setWidth 256))

/-- A privileged atomic at a physical address; it never raises INCO (R394, R396). -/
def State.execPriAtomic (s : State) (ra rb : Reg) (d : BitVec 12) (n : Nat) (op : AtomicOp) : Result :=
  s.atDecode s.privileged .int
    ((s.check (s.atomicReq (s.priAddr rb d n) n).physical).andThen fun pa t => t.fetchAndOp s.pc ra pa n op false)


/-- `PRI_LDW/p` Ra,disp(Rb) (R391). -/
def execPriLdwP (ra rb : Reg) (disp : BitVec 12) (s : State) : Result :=
  s.execPriLoad ra (s.loadReq (s.priAddr rb disp 4) 4 .scalar).physical 4

/-- `PRI_LDW_INC/p` Ra,disp(Rb) (R396). -/
def execPriLdwIncP (ra rb : Reg) (disp : BitVec 12) (s : State) : Result :=
  s.execPriAtomic ra rb disp 4 .inc

/-- `PRI_LDW_DEC/p` Ra,disp(Rb) (R397). -/
def execPriLdwDecP (ra rb : Reg) (disp : BitVec 12) (s : State) : Result :=
  s.execPriAtomic ra rb disp 4 .dec

/-- `PRI_LDW_SET/p` Ra,disp(Rb) (R398). -/
def execPriLdwSetP (ra rb : Reg) (disp : BitVec 12) (s : State) : Result :=
  s.execPriAtomic ra rb disp 4 .set

/-- `PRI_LDW/v` Ra,disp(Rb) (R392). -/
def execPriLdwV (ra rb : Reg) (disp : BitVec 12) (s : State) : Result :=
  s.execPriLoad ra ((s.loadReq (s.priAddr rb disp 4) 4 .scalar).asPm (modeOf s.dtbPm) false) 4

/-- `PRI_LDW/vpte` Ra,disp(Rb) (R783). -/
def execPriLdwVpte (ra rb : Reg) (disp : BitVec 12) (s : State) : Result :=
  s.execPriLoad ra ((s.loadReq (s.priAddr rb disp 4) 4 .scalar).asPm (modeOf s.dtbPm) true) 4

/-- `PRI_STW/p` Ra,disp(Rb) (R399). -/
def execPriStwP (ra rb : Reg) (disp : BitVec 12) (s : State) : Result :=
  let v := s.readReg ra
  s.execPriStore (s.storeReq (s.priAddr rb disp 4) 4 .scalar v).physical 4 v

/-- `PRI_STW/v` Ra,disp(Rb) (R393). -/
def execPriStwV (ra rb : Reg) (disp : BitVec 12) (s : State) : Result :=
  let v := s.readReg ra
  s.execPriStore ((s.storeReq (s.priAddr rb disp 4) 4 .scalar v).asPm (modeOf s.dtbPm) false) 4 v

/-- `PRI_LDL/p` Ra,disp(Rb) (R391). -/
def execPriLdlP (ra rb : Reg) (disp : BitVec 12) (s : State) : Result :=
  s.execPriLoad ra (s.loadReq (s.priAddr rb disp 8) 8 .scalar).physical 8

/-- `PRI_LDL_INC/p` Ra,disp(Rb) (R396). -/
def execPriLdlIncP (ra rb : Reg) (disp : BitVec 12) (s : State) : Result :=
  s.execPriAtomic ra rb disp 8 .inc

/-- `PRI_LDL_DEC/p` Ra,disp(Rb) (R397). -/
def execPriLdlDecP (ra rb : Reg) (disp : BitVec 12) (s : State) : Result :=
  s.execPriAtomic ra rb disp 8 .dec

/-- `PRI_LDL_SET/p` Ra,disp(Rb) (R398). -/
def execPriLdlSetP (ra rb : Reg) (disp : BitVec 12) (s : State) : Result :=
  s.execPriAtomic ra rb disp 8 .set

/-- `PRI_LDL/v` Ra,disp(Rb) (R392). -/
def execPriLdlV (ra rb : Reg) (disp : BitVec 12) (s : State) : Result :=
  s.execPriLoad ra ((s.loadReq (s.priAddr rb disp 8) 8 .scalar).asPm (modeOf s.dtbPm) false) 8

/-- `PRI_LDL/vpte` Ra,disp(Rb) (R783). -/
def execPriLdlVpte (ra rb : Reg) (disp : BitVec 12) (s : State) : Result :=
  s.execPriLoad ra ((s.loadReq (s.priAddr rb disp 8) 8 .scalar).asPm (modeOf s.dtbPm) true) 8

/-- `PRI_STL/p` Ra,disp(Rb) (R399). -/
def execPriStlP (ra rb : Reg) (disp : BitVec 12) (s : State) : Result :=
  let v := s.readReg ra
  s.execPriStore (s.storeReq (s.priAddr rb disp 8) 8 .scalar v).physical 8 v

/-- `PRI_STL/v` Ra,disp(Rb) (R393). -/
def execPriStlV (ra rb : Reg) (disp : BitVec 12) (s : State) : Result :=
  let v := s.readReg ra
  s.execPriStore ((s.storeReq (s.priAddr rb disp 8) 8 .scalar v).asPm (modeOf s.dtbPm) false) 8 v

end Sys2Proof.Machine
end

