-- ==== Sys2Proof/Machine/Misc.lean ====
section
/-! DEFINITION. Barriers, counter and identity reads, HALT (spec/41_system_misc.md). -/

namespace Sys2Proof.Machine

/-- What a MEMB does to a store's overwritten bytes: the store is ordered before later fetches, and where the hardware
keeps the instruction cache coherent (SC_CTL[IC_COH_EN]) no line holds them any more (R247; log 26). -/
def OldStore.afterMemb (coherent : Bool) (o : OldStore) : OldStore :=
  if o.stage = .stored then { o with stage := if coherent then .flushed else .ordered } else o

/-- No line filled since then holds bytes of a store a MEMB has just ordered, where the hardware keeps the instruction
cache coherent (R279). -/
def State.icacheAfterMemb (s : State) : List ICacheLine :=
  if s.sbox.scCtl.getLsbD 20 then
    s.icache.filter fun l => !s.codeHist.any fun o => o.stage == .stored && l.covers o.addr o.size
  else s.icache

/-- The memory barrier: every earlier access is performed before every later one, and the merge window is closed (R230,
R245, R400; log 26, log 27). -/
def State.memoryBarrier (s : State) : State :=
  { s with
    codeHist := s.codeHist.map (OldStore.afterMemb (s.sbox.scCtl.getLsbD 20))
    icache := s.icacheAfterMemb
    ncRecent := []
    earlyBroken := s.earlyBroken || !s.early.isEmpty
    mergeWait := none }

/-- `MEMB` (R400). -/
def execMemb (s : State) : Result := s.atDecode none .int (.next s.memoryBarrier.advance)

/-- `IMEMB` (R401). -/
def execImemb (s : State) : Result := s.atDecode none .int (.next s.fetchBarrier.advance)

/-- An instruction that reads a value into R[ra] in every mode (R407 to R409). -/
def State.execRead (s : State) (ra : Reg) (v : Word) : Result :=
  s.atDecode none .int (.next (s.writeReg ra v).advance)

/-- `RTC` Ra,Rb: TC; Rb is only a dependency (R407). -/
def execRtc (ra _rb : Reg) (s : State) : Result := s.execRead ra s.ebox.tc

/-- `RCID` Ra (R408). -/
def execRcid (ra : Reg) (s : State) : Result := s.execRead ra s.cid

/-- `RTID` Ra (R409). -/
def execRtid (ra : Reg) (s : State) : Result := s.execRead ra s.ebox.tid

/-- HALT in HM raises OPCDEC, or is null by parameter HALT_IN_HM (R410; log 47). -/
def State.haltIllegal (s : State) : Option Bool :=
  if s.mode = .hm ∧ s.plat.haltInHmNop = false then some false else none

/-- `HALT`: outside HM the core waits at the next instruction for an interrupt (R410). -/
def execHalt (s : State) : Result :=
  s.atDecode s.haltIllegal .int
    (.next (if s.mode = .hm then s.advance else { s with coreState := .halted }.advance))

end Sys2Proof.Machine
end

