-- ==== Sys2Proof/Machine/Vector.lean ====
section
/-! DEFINITION. Vector loads and stores (spec/42_load_store.md sections 4 and 5). -/

namespace Sys2Proof.Machine

/-! ## Requests -/

/-- A read of `n` bytes by a vector instruction, aligned to `align` (R422, R424). -/
def State.vloadReq (s : State) (va : Word) (n align : Nat) (cls : MemClass) : MemReq :=
  { va := va, size := n, align := align, reads := true, writes := false, cls := cls, pm := s.mode }

/-- A write of `n` bytes by a vector instruction, its value match open as that of a store wider than 8 bytes is (R422, R424,
U13). -/
def State.vstoreReq (s : State) (va : Word) (n align : Nat) (cls : MemClass) : MemReq :=
  { va := va, size := n, align := align, reads := false, writes := true, cls := cls, pm := s.mode, value := .free }

/-- The value match of a vector store that writes the low `n` bytes of `v`: a VSTx_UL or VSTx_UH that writes 8 bytes or fewer
compares them as every store does, none at all if it writes none (R439, R704; log 49); of a wider store it is open (U13). -/
def MemReq.comparing (q : MemReq) (n : Nat) (v : Vec) : MemReq :=
  { q with value := if n ≤ 8 then .bytes n (elem v 0) else .free }

/-- The alignment of an ordinary vector's elements, for SIMD_MV (R610). -/
def MemReq.elems (q : MemReq) (n : Nat) : MemReq := { q with elemAlign := n }

/-- The access lies in the aligned block of `b` bytes that holds the address (R444). -/
def MemReq.inBlock (q : MemReq) (b : Nat) : MemReq := { q with block := b }

/-! ## Shared shapes -/

/-- A load of kind `k` into V[fa]; null when `fa` is 31 (R423, R440). -/
def State.execVecLoad (s : State) (fa : Reg) (q : MemReq) (n : Nat) (k : DataKind) (conv : Vec → Vec) : Result :=
  if fa = 31 then s.execNull
  else s.atDecode none .simd (s.execLoad q n fun t v => t.writeV fa (conv v) k)

/-- A store of the low `n` bytes of V[fa], used as kind `k` and converted (R440). -/
def State.execVecStore (s : State) (fa : Reg) (q : MemReq) (n : Nat) (k : DataKind) (conv : Vec → Vec) : Result :=
  let x := s.useV fa k
  s.atDecode none .simd (x.2.execStore (q.comparing n (conv x.1)) n (conv x.1))

/-- The place of an address in its block of `b` bytes (R444). -/
def blockOffset (va : Word) (b : Nat) : Nat := va.toNat % b

/-- VSTx_UL: the first bytes of the converted V[fa] up to the end of the block (R444). -/
def State.execStoreLow (s : State) (fa : Reg) (va : Word) (b align : Nat) (k : DataKind) (conv : Vec → Vec) : Result :=
  let n := b - blockOffset va b
  s.execVecStore fa (s.vstoreReq va n align .vector) n k conv

/-- VSTx_UH: the last bytes of the converted V[fa] from the start of the block; its checks are made even when it stores
nothing (R444; log 57). -/
def State.execStoreHigh (s : State) (fa : Reg) (va : Word) (b align : Nat) (k : DataKind) (conv : Vec → Vec) : Result :=
  let n := blockOffset va b
  s.execVecStore fa ((s.vstoreReq va n align .vector).inBlock b) n k fun m => conv m >>> (8 * (b - n))

/-! ## Meanings -/

/-- `LDWE` Fa,disp(Rb): the word in all eight lanes (R441). -/
def execLdwe (fa rb : Reg) (disp : BitVec 16) (s : State) : Result :=
  s.execVecLoad fa (s.vloadReq (s.ea16 rb disp) 4 4 .vector) 4 .integer fun m => splat32 (m.extractLsb' 0 32)

/-- `LDSE` Fa,disp(Rb): the single in register format in all four elements (R447). -/
def execLdse (fa rb : Reg) (disp : BitVec 16) (s : State) : Result :=
  s.execVecLoad fa (s.vloadReq (s.ea16 rb disp) 4 4 .vector) 4 .single fun m =>
    splat64 (fldsConvert (m.extractLsb' 0 32))

/-- `LDDE` Fa,disp(Rb): the double in all four elements (R448). -/
def execLdde (fa rb : Reg) (disp : BitVec 16) (s : State) : Result :=
  s.execVecLoad fa (s.vloadReq (s.ea16 rb disp) 8 8 .vector) 8 .image fun m => splat64 (elem m 0)

/-- `VLDS` Fa,disp(Rb) (R443). -/
def execVlds (fa rb : Reg) (disp : BitVec 16) (s : State) : Result :=
  s.execVecLoad fa ((s.vloadReq (s.ea16 rb disp) 16 16 .vector).elems 4) 16 .single fldsVec

/-- `VLDD` Fa,disp(Rb) (R442). -/
def execVldd (fa rb : Reg) (disp : BitVec 16) (s : State) : Result :=
  s.execVecLoad fa ((s.vloadReq (s.ea16 rb disp) 32 32 .vector).elems 8) 32 .image id

/-- `VSTS` Fa,disp(Rb) (R450). -/
def execVsts (fa rb : Reg) (disp : BitVec 16) (s : State) : Result :=
  s.execVecStore fa ((s.vstoreReq (s.ea16 rb disp) 16 16 .vector).elems 4) 16 .single fstsVec

/-- `VSTD` Fa,disp(Rb) (R449). -/
def execVstd (fa rb : Reg) (disp : BitVec 16) (s : State) : Result :=
  s.execVecStore fa ((s.vstoreReq (s.ea16 rb disp) 32 32 .vector).elems 8) 32 .image id

/-- `VLDW_U` Fa,disp(Rb): the whole aligned block (R451). -/
def execVldwU (fa rb : Reg) (disp : BitVec 12) (s : State) : Result :=
  s.execVecLoad fa ((s.vloadReq (s.ea12 rb disp) 32 4 .vector).inBlock 32) 32 .integer id

/-- `VSTW_U` Fa,disp(Rb): the whole aligned block (R454). -/
def execVstwU (fa rb : Reg) (disp : BitVec 12) (s : State) : Result :=
  s.execVecStore fa ((s.vstoreReq (s.ea12 rb disp) 32 4 .vector).inBlock 32) 32 .integer id

/-- `VLDS_U` Fa,disp(Rb): the whole aligned block (R452). -/
def execVldsU (fa rb : Reg) (disp : BitVec 12) (s : State) : Result :=
  s.execVecLoad fa ((s.vloadReq (s.ea12 rb disp) 16 4 .vector).inBlock 16) 16 .single fldsVec

/-- `VSTS_U` Fa,disp(Rb): the whole aligned block (R455). -/
def execVstsU (fa rb : Reg) (disp : BitVec 12) (s : State) : Result :=
  s.execVecStore fa ((s.vstoreReq (s.ea12 rb disp) 16 4 .vector).inBlock 16) 16 .single fstsVec

/-- `VLDD_U` Fa,disp(Rb): the whole aligned block (R453). -/
def execVlddU (fa rb : Reg) (disp : BitVec 12) (s : State) : Result :=
  s.execVecLoad fa ((s.vloadReq (s.ea12 rb disp) 32 8 .vector).inBlock 32) 32 .image id

/-- `VSTD_U` Fa,disp(Rb): the whole aligned block (R456). -/
def execVstdU (fa rb : Reg) (disp : BitVec 12) (s : State) : Result :=
  s.execVecStore fa ((s.vstoreReq (s.ea12 rb disp) 32 8 .vector).inBlock 32) 32 .image id

/-- `VSTW_UL` Fa,disp(Rb) (R457). -/
def execVstwUl (fa rb : Reg) (disp : BitVec 12) (s : State) : Result :=
  s.execStoreLow fa (s.ea12 rb disp) 32 4 .integer id

/-- `VSTW_UH` Fa,disp(Rb) (R458). -/
def execVstwUh (fa rb : Reg) (disp : BitVec 12) (s : State) : Result :=
  s.execStoreHigh fa (s.ea12 rb disp) 32 4 .integer id

/-- `VSTS_UL` Fa,disp(Rb) (R459). -/
def execVstsUl (fa rb : Reg) (disp : BitVec 12) (s : State) : Result :=
  s.execStoreLow fa (s.ea12 rb disp) 16 4 .single fstsVec

/-- `VSTS_UH` Fa,disp(Rb) (R469). -/
def execVstsUh (fa rb : Reg) (disp : BitVec 12) (s : State) : Result :=
  s.execStoreHigh fa (s.ea12 rb disp) 16 4 .single fstsVec

/-- `VSTD_UL` Fa,disp(Rb) (R476). -/
def execVstdUl (fa rb : Reg) (disp : BitVec 12) (s : State) : Result :=
  s.execStoreLow fa (s.ea12 rb disp) 32 8 .image id

/-- `VSTD_UH` Fa,disp(Rb) (R477). -/
def execVstdUh (fa rb : Reg) (disp : BitVec 12) (s : State) : Result :=
  s.execStoreHigh fa (s.ea12 rb disp) 32 8 .image id

/-- `VLDD_NC` Fa,disp(Rb) (R467). SIMD_MV is not set for a misaligned address: R610 names the four ordinary forms only,
DESIGN CHOICE (log 62). -/
def execVlddNc (fa rb : Reg) (disp : BitVec 12) (s : State) : Result :=
  s.execVecLoad fa (s.vloadReq (s.ea12 rb disp) 32 32 .nonCache) 32 .image id

/-- `VSTD_NC` Fa,disp(Rb) (R468). SIMD_MV as for VLDD_NC, DESIGN CHOICE (log 62). -/
def execVstdNc (fa rb : Reg) (disp : BitVec 12) (s : State) : Result :=
  s.execVecStore fa (s.vstoreReq (s.ea12 rb disp) 32 32 .nonCache) 32 .image id

end Sys2Proof.Machine
end

