-- ==== Sys2Proof/Machine/Clock.lean ====
section
/-! DEFINITION. What advances with time: TC, the timer, the error window, the event counters
(spec/61_interrupts_platform.md R671, R672, R690 to R695; log 8, log 40). -/

namespace Sys2Proof.Machine

/-- PC0_CR or PC1_CR advanced by `n` events: the 58-bit count wraps, the selector stays (R693). -/
def countBy (cr : Word) (n : Nat) : Word := setField cr 0 58 (cr + BitVec.ofNat 64 n)

/-- The addition carried out of bit 57 (R693). -/
def countCarries (cr : Word) (n : Nat) : Bool := decide (2 ^ 58 ≤ (cr.extractLsb' 0 58).toNat + n)

/-- Counter 0 or 1 counts in this mode (R104). -/
def State.counting (s : State) (second : Bool) (mode : BitVec 2) : Bool :=
  s.ibox.isCtl.getLsbD (if second then 15 else 14)
    && (s.ibox.isCtl.getLsbD 10 || (s.ibox.isCtl.getLsbD 11 && mode == s.ibox.isCtl.extractLsb' 12 2))

/-- Counter 0 counts `n` events (R693). -/
def State.countPc0 (s : State) (n : Nat) : State :=
  let t := { s with ibox := { s.ibox with pc0Cr := countBy s.ibox.pc0Cr n } }
  if countCarries s.ibox.pc0Cr n then t.setPending s.pc0Vec else t

/-- Counter 1 counts `n` events (R693). -/
def State.countPc1 (s : State) (n : Nat) : State :=
  let t := { s with ibox := { s.ibox with pc1Cr := countBy s.ibox.pc1Cr n } }
  if countCarries s.ibox.pc1Cr n then t.setPending s.pc1Vec else t

/-- What the event counters tell instructions apart by (R691). -/
structure EventClass where
  /-- A null instruction or MEMB: not counted as retired. -/
  uncounted : Bool := false
  memory : Bool := false
  reads : Bool := false
  transfer : Bool := false
  conditional : Bool := false
  callOrJmp : Bool := false
  isRet : Bool := false
  deriving DecidableEq, Repr

/-- How many of counter 0's selected events an instruction makes: exact for selections 0 to 7, else free (R691, R695).
`retired` is false when the instruction was aborted by a fault. -/
def pc0Events (sel : Nat) (c : EventClass) (retired : Bool) (free : Nat) : Nat :=
  match sel with
  | 0 => (retired && !c.uncounted).toNat
  | 1 => (retired && c.memory).toNat
  | 2 => (retired && c.reads).toNat
  | 3 => (retired && c.transfer).toNat
  | 4 => (retired && c.conditional).toNat
  | 5 => (retired && c.transfer && !c.conditional).toNat
  | 6 => (retired && c.callOrJmp).toNat
  | 7 => (retired && c.isRet).toNat
  | _ => free

/-- A reserved selection of counter 1 (R692): it counts nothing. -/
def pc1Reserved (sel : Nat) : Bool :=
  sel == 0x19 || sel == 0x35 || sel == 0x2F || (decide (0x20 ≤ sel) && decide (sel ≤ 0x24)) || decide (0x38 ≤ sel)

/-- How many of counter 1's selected events a step makes: exact for the misses taken, else free (R692, R695). -/
def pc1Events (sel : Nat) (e : Option Exc) (free : Nat) : Nat :=
  if pc1Reserved sel then 0
  else
    match sel with
    | 0x17 => (e == some .itbMiss0 || e == some .itbMiss1).toNat
    | 0x30 => (e == some .dtbmSingle0 || e == some .dtbmSingle1).toNat
    | 0x31 => (e == some .dtbmDouble).toNat
    | _ => free

/-- The instruction retired: it took no exception, or an arithmetic trap (R580). -/
def retiredWith (e : Option Exc) : Bool := e == none || e == some .arith

/-- The event counters after a step that ran in mode `mode` (R690, R693). -/
def State.countEvents (s : State) (mode : BitVec 2) (c : EventClass) (retired : Bool) : State :=
  let s1 :=
    if s.counting false mode then
      (s.countPc0 (pc0Events (s.ibox.pc0Cr.extractLsb' 60 4).toNat c retired (Config.cycles s.draws))).drawn
    else s
  if s1.counting true mode then
    (s1.countPc1 (pc1Events (s1.ibox.pc1Cr.extractLsb' 58 6).toNat s1.lastExc (Config.cycles s1.draws))).drawn
  else s1

/-- TC counts while TC_CTL[TC_EN] = 1, modulo 2^64 (R176; D11). -/
def State.tickTc (s : State) (n : Nat) : State :=
  if s.ebox.tcCtl.getLsbD 0 then { s with ebox := { s.ebox with tc := s.ebox.tc + BitVec.ofNat 64 n } } else s

/-- The timer: at or past its threshold it requests its interrupt and turns itself off (R671). After its threshold
was written while it ran, whether it fires is free (U6). -/
def State.tickTimer (s : State) (n : Nat) : State :=
  if s.ibox.timerCtl.getLsbD 0 then
    let count := s.timerCount + BitVec.ofNat 64 n
    let fires := if s.timerWild then s.free.getLsbD 0
      else decide (0 < n) && decide (s.ibox.timerTh.toNat ≤ s.timerCount.toNat + n)
    let t := { s with timerCount := count, draws := if s.timerWild then s.draws + 1 else s.draws }
    if fires then ({ t with ibox := { t.ibox with timerCtl := 0 }, timerWild := false }).setPending s.timerVec else t
  else s

/-- The error window: a carry out of (or into) its selected bit clears the error counter (R118, R119). -/
def State.tickHserr (s : State) (n : Nat) : State :=
  if s.ibox.hserrTh.getLsbD 6 then s
  else
    let k := (s.ibox.hserrTh.extractLsb' 0 6).toNat
    let bits := if s.plat.hserrCarryInto then k else k + 1
    let carries := decide (2 ^ bits ≤ s.hserrTime.toNat % 2 ^ bits + n)
    { s with
      hserrTime := s.hserrTime + BitVec.ofNat 64 n
      ibox := { s.ibox with
        hserrCnt := if s.ibox.hserrCnt.extractLsb' 0 32 = 0 then s.ibox.hserrCnt
          else if carries then setField s.ibox.hserrCnt 0 32 0 else s.ibox.hserrCnt } }

/-- The merge window waits `n` cycles more, and closes when its counter reaches MERGE_OVTIME (R170, R231; log 28). -/
def State.tickMerge (s : State) (n : Nat) : State :=
  { s with mergeWait := match s.mergeWait with
      | some w => if w + n < s.sbox.mergeOvtime.toNat then some (w + n) else none
      | none => none }

/-- Some cycles pass, a free number (parameter CLOCK; R762; log 8). -/
def State.clockTick (s : State) : State :=
  let n := Config.cycles s.draws
  (((s.drawn.tickTc n).tickTimer n).tickHserr n).tickMerge n

end Sys2Proof.Machine
end

