-- ==== Sys2Proof/Machine/EventClass.lean ====
section
/-! DEFINITION. What the event counters tell the instructions apart by (spec/61_interrupts_platform.md R691; log 40). -/

namespace Sys2Proof.Machine

/-- A null instruction: no destination but register 31 (R358, R406; log 14). -/
def nullDest (r : Reg) : Bool := r == 31

/-- A null SYS_CALL: in HM with fn[24:8] = 0 (R385). -/
def State.nullSys (s : State) (fn : BitVec 25) : Bool := s.mode == .hm && (fn >>> 8 == 0)

/-- A null cache control instruction: its line lies in non-cacheable or I/O space (R218, R470). -/
def State.nullLine (s : State) (rb : Reg) (d : BitVec 16) : Bool :=
  let q := s.lineReq rb d
  match s.translate q with
  | .ok pa _ => q.uncached pa
  | _ => false

/-- The event class of an instruction that ran in state `s`; a null instruction is in no class (R406, R691). -/
def Instr.eventClass (i : Instr) (s : State) : EventClass :=
  match i with
  | .sysCall fn => { uncounted := s.nullSys fn }
  | .sysCallB fn => { uncounted := s.nullSys fn }
  | .call _ _ _ => { transfer := true, callOrJmp := true }
  | .ret _ _ _ => { transfer := true, isRet := true }
  | .jmp _ _ _ => { transfer := true, callOrJmp := true }
  | .br _ _ => { transfer := true }
  | .bsr _ _ => { transfer := true }
  | .beq _ _ => { transfer := true, conditional := true }
  | .bne _ _ => { transfer := true, conditional := true }
  | .blt _ _ => { transfer := true, conditional := true }
  | .ble _ _ => { transfer := true, conditional := true }
  | .bgt _ _ => { transfer := true, conditional := true }
  | .bge _ _ => { transfer := true, conditional := true }
  | .blbc _ _ => { transfer := true, conditional := true }
  | .blbs _ _ => { transfer := true, conditional := true }
  | .fbeq _ _ => { transfer := true, conditional := true }
  | .fbne _ _ => { transfer := true, conditional := true }
  | .fblt _ _ => { transfer := true, conditional := true }
  | .fble _ _ => { transfer := true, conditional := true }
  | .fbgt _ _ => { transfer := true, conditional := true }
  | .fbge _ _ => { transfer := true, conditional := true }
  | .memb => { uncounted := true }
  | .imemb => {}
  | .rtc _ _ => {}
  | .rcid _ => {}
  | .halt => { uncounted := s.mode == .hm }
  | .rdF ra => { uncounted := nullDest ra }
  | .wrF _ => {}
  | .rtid _ => {}
  | .priRcsr _ _ => {}
  | .priWcsr _ _ => {}
  | .priRet _ => {}
  | .priRetB _ => {}
  | .lldw _ _ _ => { memory := true, reads := true }
  | .lldl _ _ _ => { memory := true, reads := true }
  | .ldwInc _ _ _ => { memory := true, reads := true }
  | .ldlInc _ _ _ => { memory := true, reads := true }
  | .ldwDec _ _ _ => { memory := true, reads := true }
  | .ldlDec _ _ _ => { memory := true, reads := true }
  | .ldwSet _ _ _ => { memory := true, reads := true }
  | .ldlSet _ _ _ => { memory := true, reads := true }
  | .lstw _ _ _ => { memory := true }
  | .lstl _ _ _ => { memory := true }
  | .ldwNc ra _ _ => { uncounted := nullDest ra, memory := !nullDest ra, reads := !nullDest ra }
  | .ldlNc ra _ _ => { uncounted := nullDest ra, memory := !nullDest ra, reads := !nullDest ra }
  | .lddNc fa _ _ => { uncounted := nullDest fa, memory := !nullDest fa, reads := !nullDest fa }
  | .stwNc _ _ _ => { memory := true }
  | .stlNc _ _ _ => { memory := true }
  | .stdNc _ _ _ => { memory := true }
  | .ldwe fa _ _ => { uncounted := nullDest fa, memory := !nullDest fa, reads := !nullDest fa }
  | .ldse fa _ _ => { uncounted := nullDest fa, memory := !nullDest fa, reads := !nullDest fa }
  | .ldde fa _ _ => { uncounted := nullDest fa, memory := !nullDest fa, reads := !nullDest fa }
  | .vlds fa _ _ => { uncounted := nullDest fa, memory := !nullDest fa, reads := !nullDest fa }
  | .vldd fa _ _ => { uncounted := nullDest fa, memory := !nullDest fa, reads := !nullDest fa }
  | .vsts _ _ _ => { memory := true }
  | .vstd _ _ _ => { memory := true }
  | .addw _ _ rc => { uncounted := nullDest rc }
  | .addwL _ _ rc => { uncounted := nullDest rc }
  | .subw _ _ rc => { uncounted := nullDest rc }
  | .subwL _ _ rc => { uncounted := nullDest rc }
  | .addl _ _ rc => { uncounted := nullDest rc }
  | .addlL _ _ rc => { uncounted := nullDest rc }
  | .subl _ _ rc => { uncounted := nullDest rc }
  | .sublL _ _ rc => { uncounted := nullDest rc }
  | .mulw _ _ rc => { uncounted := nullDest rc }
  | .mulwL _ _ rc => { uncounted := nullDest rc }
  | .mull _ _ rc => { uncounted := nullDest rc }
  | .mullL _ _ rc => { uncounted := nullDest rc }
  | .umulh _ _ rc => { uncounted := nullDest rc }
  | .umulhL _ _ rc => { uncounted := nullDest rc }
  | .cmpeq _ _ rc => { uncounted := nullDest rc }
  | .cmpeqL _ _ rc => { uncounted := nullDest rc }
  | .cmplt _ _ rc => { uncounted := nullDest rc }
  | .cmpltL _ _ rc => { uncounted := nullDest rc }
  | .cmple _ _ rc => { uncounted := nullDest rc }
  | .cmpleL _ _ rc => { uncounted := nullDest rc }
  | .cmpult _ _ rc => { uncounted := nullDest rc }
  | .cmpultL _ _ rc => { uncounted := nullDest rc }
  | .cmpule _ _ rc => { uncounted := nullDest rc }
  | .cmpuleL _ _ rc => { uncounted := nullDest rc }
  | .and _ _ rc => { uncounted := nullDest rc }
  | .andL _ _ rc => { uncounted := nullDest rc }
  | .bic _ _ rc => { uncounted := nullDest rc }
  | .bicL _ _ rc => { uncounted := nullDest rc }
  | .bis _ _ rc => { uncounted := nullDest rc }
  | .bisL _ _ rc => { uncounted := nullDest rc }
  | .ornot _ _ rc => { uncounted := nullDest rc }
  | .ornotL _ _ rc => { uncounted := nullDest rc }
  | .xor _ _ rc => { uncounted := nullDest rc }
  | .xorL _ _ rc => { uncounted := nullDest rc }
  | .eqv _ _ rc => { uncounted := nullDest rc }
  | .eqvL _ _ rc => { uncounted := nullDest rc }
  | .nop => { uncounted := true }
  | .fimovs _ rc => { uncounted := nullDest rc }
  | .fimovd _ rc => { uncounted := nullDest rc }
  | .faddd _ _ fc => { uncounted := nullDest fc }
  | .ifmovs _ fc => { uncounted := nullDest fc }
  | .ifmovd _ fc => { uncounted := nullDest fc }
  | .rfpcr fa => { uncounted := nullDest fa }
  | .wfpcr _ => {}
  | .setfpec0 => {}
  | .setfpec1 => {}
  | .setfpec2 => {}
  | .setfpec3 => {}
  | .vaddd _ _ fc => { uncounted := nullDest fc }
  | .vldwU fa _ _ => { uncounted := nullDest fa, memory := !nullDest fa, reads := !nullDest fa }
  | .vstwU _ _ _ => { memory := true }
  | .vldsU fa _ _ => { uncounted := nullDest fa, memory := !nullDest fa, reads := !nullDest fa }
  | .vstsU _ _ _ => { memory := true }
  | .vlddU fa _ _ => { uncounted := nullDest fa, memory := !nullDest fa, reads := !nullDest fa }
  | .vstdU _ _ _ => { memory := true }
  | .vstwUl _ _ _ => { memory := true }
  | .vstwUh _ _ _ => { memory := true }
  | .vstsUl _ _ _ => { memory := true }
  | .vstsUh _ _ _ => { memory := true }
  | .vstdUl _ _ _ => { memory := true }
  | .vstdUh _ _ _ => { memory := true }
  | .vlddNc fa _ _ => { uncounted := nullDest fa, memory := !nullDest fa, reads := !nullDest fa }
  | .vstdNc _ _ _ => { memory := true }
  | .ldbu ra _ _ => { uncounted := nullDest ra, memory := !nullDest ra, reads := !nullDest ra }
  | .ldhu ra _ _ => { uncounted := nullDest ra, memory := !nullDest ra, reads := !nullDest ra }
  | .ldw ra _ _ => { uncounted := nullDest ra, memory := !nullDest ra, reads := !nullDest ra }
  | .ldl ra _ _ => { uncounted := nullDest ra, memory := !nullDest ra, reads := !nullDest ra }
  | .ldlU ra _ _ => { uncounted := nullDest ra, memory := !nullDest ra, reads := !nullDest ra }
  | .flds fa _ _ => { uncounted := nullDest fa, memory := !nullDest fa, reads := !nullDest fa }
  | .fldd fa _ _ => { uncounted := nullDest fa, memory := !nullDest fa, reads := !nullDest fa }
  | .stb _ _ _ => { memory := true }
  | .sth _ _ _ => { memory := true }
  | .stw _ _ _ => { memory := true }
  | .stl _ _ _ => { memory := true }
  | .stlU _ _ _ => { memory := true }
  | .fsts _ _ _ => { memory := true }
  | .fstd _ _ _ => { memory := true }
  | .ldi ra _ _ => { uncounted := nullDest ra }
  | .ldih ra _ _ => { uncounted := nullDest ra }
  | .priLdwP ra _ _ => { uncounted := nullDest ra, memory := !nullDest ra, reads := !nullDest ra }
  | .priLdlP ra _ _ => { uncounted := nullDest ra, memory := !nullDest ra, reads := !nullDest ra }
  | .priLdwIncP _ _ _ => { memory := true, reads := true }
  | .priLdlIncP _ _ _ => { memory := true, reads := true }
  | .priLdwDecP _ _ _ => { memory := true, reads := true }
  | .priLdlDecP _ _ _ => { memory := true, reads := true }
  | .priLdwSetP _ _ _ => { memory := true, reads := true }
  | .priLdlSetP _ _ _ => { memory := true, reads := true }
  | .priLdwV ra _ _ => { uncounted := nullDest ra, memory := !nullDest ra, reads := !nullDest ra }
  | .priLdlV ra _ _ => { uncounted := nullDest ra, memory := !nullDest ra, reads := !nullDest ra }
  | .priLdwVpte ra _ _ => { uncounted := nullDest ra, memory := !nullDest ra, reads := !nullDest ra }
  | .priLdlVpte ra _ _ => { uncounted := nullDest ra, memory := !nullDest ra, reads := !nullDest ra }
  | .priStwP _ _ _ => { memory := true }
  | .priStlP _ _ _ => { memory := true }
  | .priStwV _ _ _ => { memory := true }
  | .priStlV _ _ _ => { memory := true }
  | .fetchd rb d => { uncounted := s.nullLine rb d, memory := !s.nullLine rb d, reads := !s.nullLine rb d }
  | .fetchdE rb d => { uncounted := s.nullLine rb d, memory := !s.nullLine rb d, reads := !s.nullLine rb d }
  | .flushd rb d => { uncounted := s.nullLine rb d, memory := !s.nullLine rb d }
  | .evictdl rb d => { uncounted := s.nullLine rb d, memory := !s.nullLine rb d }
  | .evictdg rb d => { uncounted := s.nullLine rb d, memory := !s.nullLine rb d }
  | .vinsf _ _ _ fc => { uncounted := nullDest fc }
  | .vinsw _ _ _ fc => { uncounted := nullDest fc }
  | .vcpyf _ fc => { uncounted := nullDest fc }
  | .vextf _ _ fc => { uncounted := nullDest fc }
  | .vextw _ _ fc => { uncounted := nullDest fc }

end Sys2Proof.Machine
end

