-- ==== Sys2Proof/Machine/Interrupts.lean ====
section
/-! DEFINITION. Recognising and entering interrupts, and everything the environment does
(spec/60_exceptions.md R640 to R645, spec/61_interrupts_platform.md, spec/70_reset_and_hazards.md R720 to R730). -/

namespace Sys2Proof.Machine

/-! ## Recognition -/

/-- The inter-core and message requests (R640 req0). MAIL_NUM is two's complement (R96). -/
def State.request0 (s : State) : Bool :=
  (s.ibox.iiEr.getLsbD 0 && s.ibox.ii0 != 0) || (s.ibox.iiEr.getLsbD 1 && s.ibox.ii1 != 0)
    || (s.ibox.iiEr.getLsbD 2 && decide (0 < s.ibox.iiMail.toInt))

/-- The pending and enabled requests (R640). -/
def State.live (s : State) : BitVec 256 := s.ibox.pending &&& s.ibox.ier

/-- The pending and enabled requests other than SLEEP_VEC's and MCHK_VEC's (R640 req1; D29). -/
def State.request1 (s : State) : Bool :=
  s.live &&& ~~~((1 : BitVec 256) <<< s.sleepVec.toNat) &&& ~~~((1 : BitVec 256) <<< s.mchkVec.toNat) != 0

/-- The interrupt taken at an instruction boundary: none in HM (R582), else MCHK, SLEEP, INTERRUPT1, INTERRUPT0 in
this order (R640, R642). -/
def State.recognised (s : State) : Option Exc :=
  if s.mode = .hm then none
  else if s.live.getLsbD s.mchkVec.toNat then some .mchk
  else if s.live.getLsbD s.sleepVec.toNat then some .sleep
  else if s.request1 then some .interrupt1
  else if s.request0 then some .interrupt0
  else none

/-! ## Resets -/

/-- Registers lost in a reset hold free values (R723, R726, U19): 32 draws for each file of registers. -/
def State.loseRegisters (s : State) : State :=
  { s with
    gpr := Vector.ofFn fun i => (Config.freeBits (s.draws + i.val)).extractLsb' 0 64
    sr := Vector.ofFn fun i => (Config.freeBits (s.draws + 32 + i.val)).extractLsb' 0 64
    vr := Vector.ofFn fun i => Config.freeBits (s.draws + 64 + i.val)
    kinds := Vector.replicate 32 .unwritten
    fpcr := (Config.freeBits (s.draws + 96)).extractLsb' 0 64 &&& 0x7FFF01F001F001F3
    lock := { valid := false, flag := false, success := (Config.freeBits (s.draws + 97)).getLsbD 0,
              addr := (Config.freeBits (s.draws + 98)).extractLsb' 0 48,
              size := if (Config.freeBits (s.draws + 99)).getLsbD 0 then 8 else 4, kept := false }
    draws := s.draws + 100 }

/-- The CSRs every reset sets (R725 list 1). HARD_ERR too (R54). The wake-up keeps CP_CTL as configured (R54, R169). -/
def State.resetList1 (s : State) : State :=
  { s with
    ibox := { s.ibox with
      isCtl := 0x101F8, vpcr := 0, upcr := 7, iaMatch := 0, iaMask := 0x7FFFFFFFFFFFFFFF, hserrCnt := 0,
      hserrTh := 0x1F, iglInst := 0, softErr := 0, hardErr := 0, timerCtl := 0, timerTh := 0 }
    dbox := { s.dbox with
      dsCtl := 0, dcCtl := 0x945600000000000F, daMatch := 0, daMask := 0x001FFFFFFFFFFFFF,
      daMatchMode := 0x001FFFFFFFFFFFFF, dvMatch := 0, dvMask := 0xFFFFFFFFFFFFFFFF }
    sbox := { s.sbox with scCtl := 0x1000FF, intReq := 0, mergeOvtime := 0x100 }
    ebox := { s.ebox with
      icr := 0, idaMatch := 0, idaMask := 0x001FFFFFFFFFFFFF, tc := 0, tcCtl := 0 } }

/-- Nothing stands in the data cache. -/
def State.dropDataCache (s : State) : State := { s with dcErrors := [], dcDirty := [] }

/-- What every reset clears beside the CSRs: translation buffers, instruction cache, timer, waiting work (R723). The
64-bit time counter behind HSERR_TH (R52, R119) is kept over wake-up, cold and power-on reset, and the merge-window wait
counter (R52) is cleared by them, so that no window is open: the spec gives neither a reset value, DESIGN CHOICE (log 28, log
45). -/
def State.resetUnits (s : State) : State :=
  { s with
    itb := [], dtb := [], icache := [], timerCount := 0, timerWild := false, codeHist := [], ncRecent := [],
    early := [], earlyBroken := s.earlyBroken || !s.early.isEmpty, mergeWait := none, idaMatchWriter := none,
    idaMaskWriter := none, retJump := none, lateErrors := [], dcErrors := [], dcDirty := [], armed := none,
    armedFetch := none, coreState := .running, lastExc := none }

/-- The caches are cleared, and with them the stored bytes that stood only there: they hold free values (R50, R710,
R723; log 45). -/
def State.loseCaches (s : State) : State :=
  { s with mem := loseBytes s.mem s.draws s.unflushed, draws := s.draws + s.unflushed.length, unflushed := [] }

/-- Execution starts at PRI_BASE + 0x1000 in HM (R29, R722). -/
def State.atResetEntry (s : State) : State := { s with pc := entryAddr s.ibox.priBase 0x1000 }

/-- Wake-up: list 1 is reset, the registers and the caches are lost, EXC_PC takes the sleep interrupt's breakpoint,
PRI_BASE, the interrupt state, ISSUE_CTL, CP_CTL, TID, SOFTCSRs and memory are kept (R720, R723; log 45). CPM_CoreSleep is
cleared (R677, R680), and so is SLEEP_DONE, of which the spec says nothing: DESIGN CHOICE (log 45). -/
def State.wake (s : State) : State :=
  let t := s.loseRegisters.loseCaches.resetList1.resetUnits
  ({ t with
    ibox := { t.ibox with excPc := s.sleepBreak }
    ior := { t.ior with cpmCoreSleep := 0, sleepDone := 0 } }).atResetEntry

/-- The platform's part of a cold or power-on reset: CP_CTL as the maintenance side configures it, its reserved bits [63:7]
0 (R11, R169), and the initial program in memory and in the instruction cache (parameters CP_CTL and INIT_PROGRAM; R8, R54,
R724; log 3, log 5). -/
def State.platformReset (s : State) : State :=
  { s with
    sbox := { s.sbox with cpCtl := s.plat.cpCtl &&& 0x7F }
    mem := writeCells s.mem (min s.plat.memSize (2 ^ 46)) s.plat.initProgram
    icache := s.plat.initICache }

/-- Cold reset: list 1 and the registers of table 7-1 are reset; EXC_PC, TID, SOFTCSRs and memory are kept, the caches'
own bytes are lost (R720, R725, R726; log 45). -/
def State.cold (s : State) : State :=
  let t := s.loseRegisters.loseCaches.resetList1.resetUnits
  ({ t with
    ibox := { t.ibox with
      priBase := 0, pending := 0, intVec := 0x0000FAFBFCFDFEFF, ii0 := 0, ii1 := 0, iiMail := 0, issueCtl := 0xFFFFF,
      ptbr := 0 }
    ior := .reset }).platformReset.atResetEntry

/-- Power-on reset: as a cold reset, and TID, the SOFTCSRs and memory too (R54, R181, R182, R720; log 45). The CSRs of list
3 keep their values over a power-on in a run: R725 says that they are kept and that this means unspecified after power-on,
DESIGN CHOICE (log 45). -/
def State.powerOn (s : State) : State :=
  let t := s.cold
  { t with
    mem := writeCells [] (min s.plat.memSize (2 ^ 46)) s.plat.initProgram
    ebox := { t.ebox with tid := 0, softcsr := Vector.replicate 48 0 } }

/-! ## The environment (R653; D31; log 7) -/

/-- The core accepts events other than wake-up, resets and stores of other agents (R677). -/
def State.awake (s : State) : Bool := s.coreState != .asleep

/-- A message arrives in the own mailbox, or is lost with FULL_FLAG set (R662). -/
def State.mailArrives (s : State) (src : BitVec 4) (m : Word) : State :=
  if s.ior.mailQueue.length < s.plat.mailDepth then
    { s with ior := { s.ior with mailQueue := s.ior.mailQueue ++ [m] } }
  else { s with ior := { s.ior with mailFull := s.ior.mailFull ||| ((1 : BitVec 16) <<< src.toNat) } }

/-- The request in INT_REQ leaves the core, and Valid is cleared (R660). -/
def State.intReqSent (s : State) : State :=
  if s.sbox.intReq.getLsbD 25 then
    ({ s with sbox := { s.sbox with intReq := s.sbox.intReq &&& ~~~flag true 25 } }).send
      (.intRequest (s.sbox.intReq.extractLsb' 23 2) (s.sbox.intReq.extractLsb' 0 16))
  else s

/-- A load's second-level read was corrected and replayed: DAT_SERR is recorded and counted as of any data request (R324).
DS_STAT[SCD_SERR] records it, as the register's own table (R149) and R324 say, where R607, the rule of what a data exception
writes, says in passing that the model keeps that bit 0: by the order of precedence of spec/90_conflicts.md (1) the table
holds, DEDUCED, and the platform parameter gives the other reading (log 68). -/
def State.loadReplayed (s : State) : State :=
  ({ s with dbox := { s.dbox with
      dsStat := s.dbox.dsStat ||| flag s.plat.scdSerrRecorded 17 } }).scError 2

/-- INT_VEC gives this interrupt number to a source of the core's own (R95, R653). -/
def State.ownVector (s : State) (n : BitVec 8) : Bool :=
  n == s.sleepVec || n == s.mchkVec || n == s.crVec || n == s.pc1Vec || n == s.pc0Vec || n == s.timerVec

/-- External source `source` requests: the interrupt that EXT_INT_MAP gives it becomes pending, if there is one (R653;
log 5). -/
def State.externalRequest (s : State) (source : Nat) : State :=
  match s.plat.extIntMap.find? fun e => e.1 == source with
  | some e => if s.ownVector e.2 then s else s.setPending e.2
  | none => s

/-- The core stops in the sleep reset; the timer's registers and counter are cleared, and what its data cache held is lost
(R671, R677, R710). -/
def State.fallAsleep (s : State) : State :=
  { s.dropDataCache with coreState := .asleep, timerCount := 0, ibox := { s.ibox with timerCtl := 0, timerTh := 0 } }

/-- A byte of memory that another agent stores. The caches of a sleeping core hold nothing and take no part (R710). -/
def State.agentWrites (s : State) (a : BitVec 46) (b : Byte) : State :=
  if s.plat.memSize ≤ a.toNat then s
  else if s.awake then s.agentStore a b else s.dropDataCache.agentStore a b

/-- Another core is connected or disconnected. -/
def State.connect (s : State) (core : BitVec 4) (connected : Bool) : State :=
  let bit : BitVec 16 := 1 <<< core.toNat
  { s with disconnected := if connected then s.disconnected &&& ~~~bit else s.disconnected ||| bit }

/-- One event of the environment; an early store has its effect in `step`, which can see the program to come. -/
def State.apply (s : State) (e : EnvEvent) : State :=
  match e with
  | .external n => if s.awake then s.externalRequest n else s
  | .interCore0 src =>
    if s.awake then { s with ibox := { s.ibox with ii0 := s.ibox.ii0 ||| ((1 : BitVec 16) <<< src.toNat) } } else s
  | .interCore1 src =>
    if s.awake then { s with ibox := { s.ibox with ii1 := s.ibox.ii1 ||| ((1 : BitVec 16) <<< src.toNat) } } else s
  | .mailStored src m => s.mailArrives src m
  | .mailRequest => if s.awake then { s with ibox := { s.ibox with iiMail := s.ibox.iiMail + 1 } } else s
  | .sleepInterrupt => if s.awake then s.setPending s.sleepVec else s
  | .intReqSent => s.intReqSent
  | .agentWrite a b => s.agentWrites a b
  | .lineReplaced l => if s.awake then s.lineLeaves l else s
  | .coreConnection i c => s.connect i c
  | .iorSet r v => { s with ior := s.ior.set r v }
  | .earlyStore _ => s
  | .hwError .loadReplay => if s.awake then s.loadReplayed else s
  | .hwError h => if s.awake then s.detect h else s
  | .sleepEnter => if s.ior.sleepDone.getLsbD 0 then s.fallAsleep else s
  | .wakeUp => if s.coreState = .asleep then s.wake else s
  | .coldReset => s.cold
  | .powerOnReset => s.powerOn

end Sys2Proof.Machine
end

