-- ==== Sys2Proof/Machine/Fetch.lean ====
section
/-! DEFINITION. Fetching an instruction: the address checks, the instruction cache, the ITB, and the words, old or new, a
fetch may see (spec/20_memory.md R223, R247, spec/21_translation.md R270 to R283, spec/22_errors.md R312 to R315). -/

namespace Sys2Proof.Machine

/-! ## The words a fetch may see (R247; D15, U26; log 26) -/

/-- Byte `a` of memory before the latest `k` of the listed stores. -/
def byteBefore (m : List Host.Cell) (os : List OldStore) (k a : Nat) : Byte :=
  beforeAll m ((os.take k).map OldStore.toOverwrite) a

/-- The word at `a` before the latest `k` of the listed stores (R350). -/
def wordBefore (m : List Host.Cell) (os : List OldStore) (k a : Nat) : InsnWord :=
  wordOfBytes (byteBefore m os k a) (byteBefore m os k (a + 1)) (byteBefore m os k (a + 2)) (byteBefore m os k (a + 3))

/-- The word at `a` as memory holds it. -/
def wordAt (m : List Host.Cell) (a : Nat) : InsnWord := wordBefore m [] 0 a

/-- The word at `a` before a drawn number of the listed stores: one that stood there as a whole. -/
def wordSeen (m : List Host.Cell) (os : List OldStore) (pick : BitVec 256) (a : Nat) : InsnWord :=
  if os.isEmpty then wordAt m a else wordBefore m os (pick.toNat % (os.length + 1)) a

/-- The stores whose overwritten bytes a fetch of the word at `p` may see: none for a non-cacheable fetch (R217). -/
def State.oldsAt (s : State) (p : PAddr) : List OldStore :=
  if p.getLsbD 46 then [] else s.codeHist.filter fun o => o.overlaps (loc p) 4

/-- The word at `p`, from the line that holds it or from memory; after stores without the synchronising steps it is the
line's, the new or an old one, drawn. A store that has taken effect before its place in the program is not seen
(`State.codeMem`; log 27). -/
def State.fetchWord (s : State) (l : Option ICacheLine) (p : PAddr) : InsnWord × State :=
  let os := s.oldsAt p
  match l with
  | some l =>
    let w := l.words[(p.extractLsb' 2 5).toNat]'(p.extractLsb' 2 5).isLt
    if os.isEmpty then (w, s)
    else (if s.free.getLsbD 0 then w else wordSeen s.codeMem os (s.free >>> 1) (loc p), s.drawn)
  | none => (wordSeen s.codeMem os s.free (loc p), if os.isEmpty then s else s.drawn)

/-! ## Filling the instruction cache (R277, R278) -/

/-- The stores that may not have reached the second-level cache when line PA[46:7] of `p` is read. -/
def State.unreached (s : State) (p : PAddr) : List OldStore :=
  s.codeHist.filter fun o => o.stage == .stored && o.overlaps (loc p / 128 * 128) 128

/-- The line a fetch at pc that missed fills: KS, VPN and UPN from the ITB entry, or of the current context with KS = 1
for a fetch that is not translated; its parity wrong where IS_CTL[F_BAD_DPAR] or [F_BAD_TPAR] forces it (R103, R278). -/
def State.newLine (s : State) (e : Option ItbEntry) (p : PAddr) : ICacheLine :=
  { index := icIndex s.pc, tag := vpage s.pc, pm := s.modeBits,
    vpn := match e with | some e => e.vpn | none => s.vpn
    upn := match e with | some e => e.upn | none => s.upn
    ks := match e with | some e => e.ks | none => true
    line := p.extractLsb' 7 40
    words := Vector.ofFn fun i : Fin 32 =>
      let a := loc p / 128 * 128 + 4 * i.val
      wordSeen s.codeMem ((s.unreached p).filter fun o => o.overlaps a 4) (Config.freeBits (s.draws + i.val)) a
    badData := s.ibox.isCtl.getLsbD 2
    badTag := s.ibox.isCtl.getLsbD 1 }

/-- Fill after a fetch that missed. A non-cacheable fetch (PA[46] = 1) fills nothing (R217; log 26). -/
def State.icacheFill (s : State) (e : Option ItbEntry) (p : PAddr) : State :=
  if p.getLsbD 46 then s
  else
    let t := if (s.unreached p).isEmpty then s else { s with draws := s.draws + 32 }
    t.icacheInsert (s.newLine e p)

/-! ## Faults at the fetch -/

/-- The fetch address of a fetch that is not translated: PA[47] = 0 (R270). -/
def fetchPa (pc : Word) : PAddr := (clearLow2 pc).setWidth 48 &&& 0x7FFFFFFFFFFF

/-- The fetch is not translated (R270). -/
def State.fetchBypasses (s : State) : Bool := s.mode == .hm || (s.mode == .vm && !s.pc.getLsbD 52)

/-- An ITB miss (R604). -/
def State.raiseItbMiss (s : State) : State :=
  (s.setExcSumFree 0).enter (if s.pc.getLsbD 52 then .itbMiss1 else .itbMiss0) s.pc

/-- IACV by the ITB's execute enables (R617 cause 1). -/
def State.raiseItbAccess (s : State) : State := (s.setExcSumFree 0).enter .iacv s.pc

/-- The fetch address fails the sign check, in every mode: of a sequential or branch address (D7) and as the target of a
PRI_RET (D18; log 22). -/
def State.badFetch (s : State) : Bool := badSext s.pc

/-- IACV at such an address. Of a PRI_RET: with BAD_IVA, IVA the address, EXC_PC and EXC_SUM[REG] its own (R618; D18). Of a
sequential or branch address: as for an access violation, with no cause bit, EXC_PC the address (R617; D7; log 22). -/
def State.raiseBadFetch (s : State) : State :=
  match s.retJump with
  | some (pc, ra) => (({ s with ebox := { s.ebox with iva := s.pc } }).setExcSum (flag true 13) ra).enter .iacv pc
  | none => s.raiseItbAccess

/-- What a fetch answers. -/
inductive Fetched where
  /-- `State.ir` and `State.pair` hold the word and its neighbour. -/
  | word (s : State)
  /-- An exception or a machine check was taken. -/
  | trap (s : State)
  /-- The substitute instruction runs (R335). -/
  | substitute (s : State)

/-- The word executed in place of one that could not be fetched: SYS_CALL/b with function code 0xBB (R335). -/
def substituteWord : InsnWord := encSys 0 0xBB

/-- A fetch whose response is an error: IS_STAT bit `i` is set and the machine check requested; if it is enabled it
is taken, else the substitute instruction runs, and for MEM_MERR EXC_PC holds the address (R313 to R315, R335, R645). -/
def State.fetchError (s : State) (i : Nat) : Fetched :=
  let t := (s.setIsStat i).mchkRequest
  if s.mchkEnabled then .trap (t.enterInterrupt .mchk)
  else
    .substitute { t with
      ir := substituteWord, pair := 0
      ibox := { t.ibox with excPc := if i = 5 then sext53 s.pc else t.ibox.excPc } }

/-! ## Where the word comes from -/

/-- The word and the other word of its pair of slots, which shares its 8 bytes (R505). -/
def State.fetchPair (s : State) (l : Option ICacheLine) (p : PAddr) : Fetched :=
  let w := s.fetchWord l p
  let v := w.2.fetchWord l (p ^^^ 4)
  .word { v.2 with ir := w.1, pair := v.1 }

/-- A fetch from memory, and the errors that may come with its response: an illegal address and a control error fill no
line; data with a multi-bit error do, and go unnoticed with SC_CTL[SYSDAT_ERR_EN] = 0 (R313 to R315, R326, R333; log
44). -/
def State.fetchMemory (s : State) (e : Option ItbEntry) (p : PAddr) : Fetched :=
  let t := { s with armedFetch := none }
  if !s.memExists p 4 then s.fetchError 1
  else
    match s.armedFetch with
    | some (.fetchMemError l) =>
      if !inLine p l then (s.icacheFill e p).fetchPair none p
      else if s.sbox.scCtl.getLsbD 16 then ((t.scError 12).icacheFill e p).fetchError 5
      else (t.icacheFill e p).fetchPair none p
    | some .fetchAckError => if s.sbox.scCtl.getLsbD 14 then t.fetchError 0 else t.fetchPair none p
    | _ => (s.icacheFill e p).fetchPair none p

/-- A fetch that misses the instruction cache (R270, R275, R278). -/
def State.fetchMiss (s : State) : Fetched :=
  if s.fetchBypasses then s.fetchMemory none (fetchPa s.pc)
  else
    match s.itbLookup with
    | .hit e p => s.fetchMemory (some e) p
    | .noExecute => .trap s.raiseItbAccess
    | .miss => .trap s.raiseItbMiss

/-- The physical address of the word at pc in a line. -/
def State.lineAddr (s : State) (l : ICacheLine) : PAddr := (0 : BitVec 1) ++ l.line ++ s.pc.extractLsb' 2 5 ++ (0 : BitVec 2)

/-- Without line `l` the fetch would fill a line just like it from `p`, with no error. -/
def State.refills (s : State) (l : ICacheLine) (e : Option ItbEntry) (p : PAddr) : Bool :=
  s.memExists p 4 && s.armedFetch.isNone && (s.unreached p).isEmpty && s.newLine e p == l

/-- It makes no difference whether line `l` is still there: no other line hits, and the fetch would fill it again. -/
def State.sameWithout (s : State) (l : ICacheLine) : Bool :=
  decide ((s.icache.filter fun l => l.hits s).length ≤ 1) &&
    if s.fetchBypasses then s.refills l none (fetchPa s.pc)
    else
      match s.itbLookup with
      | .hit e p => s.refills l (some e) p
      | _ => false

/-- A fetch that the listed lines hit: the first supplies the word, the ITB is not asked; but it may be gone already, drawn
where that makes a difference, and then the next one does, or the fetch misses (R276, R283; D17; log 26). -/
def fetchFrom : List ICacheLine → State → Fetched
  | [], s => s.fetchMiss
  | l :: ls, s =>
    if s.sameWithout l then s.fetchPair (some l) (s.lineAddr l)
    else if s.free.getLsbD 0 then s.drawn.fetchPair (some l) (s.drawn.lineAddr l)
    else fetchFrom ls { s.drawn with icache := s.icache.erase l }

/-- A fetch at pc would find wrong parity in this line: in its tag, if it is in the indexed set, or in its data, if it
hits (R312). -/
def ICacheLine.bad (l : ICacheLine) (s : State) : Bool :=
  (l.index == icIndex s.pc && l.badTag) || (l.hits s && l.badData)

/-- The lines that are still there: each that satisfies `p` may be gone, drawn. -/
def stillThere (p : ICacheLine → Bool) (draws : Nat) : List ICacheLine → List ICacheLine
  | [] => []
  | l :: ls =>
    if p l && (Config.freeBits draws).getLsbD 0 then stillThere p (draws + 1) ls else l :: stillThere p (draws + 1) ls

/-- Lines of wrong parity may be gone before a fetch finds them (R283; D17; log 26). -/
def State.icacheAged (s : State) : State :=
  if s.icache.any fun l => l.bad s then
    { s with icache := stillThere (fun l => l.bad s) s.draws s.icache, draws := s.draws + s.icache.length }
  else s

/-- Wrong parity in a tag of the indexed set, or in the data of a line that hits, flushes the set (R312). With both only the
tag's is recorded and one error counted, DESIGN CHOICE: the spec does not say (R282, R312; log 69). -/
def State.icacheChecked (s : State) : State :=
  if s.icache.any fun l => l.index == icIndex s.pc && l.badTag then s.icParityError 3 (icIndex s.pc)
  else if s.icache.any fun l => l.hits s && l.badData then s.icParityError 4 (icIndex s.pc)
  else s

/-- Fetch at pc by the instruction cache. Where two lines of the set hit (a KS = 1 line and one of this process), the one
filled last supplies the word, if it is still there, DESIGN CHOICE: the spec names none (R276; log 66). -/
def State.fetchCached (s : State) : Fetched := fetchFrom (s.icache.filter fun l => l.hits s) s

/-- Fetch at pc. -/
def State.fetch (s : State) : Fetched :=
  if s.badFetch then .trap { s.raiseBadFetch with retJump := none }
  else ({ s with retJump := none }).icacheAged.icacheChecked.fetchCached

end Sys2Proof.Machine
end

