-- ==== Sys2Proof/Machine/Run.lean ====
section
/-! DEFINITION. What a step is made of: one instruction or interrupt, an event of the environment, and the look ahead that
says whether the program comes to a store that is to take effect early. -/

namespace Sys2Proof.Machine

/-- After an instruction: the event counters of the mode it ran in, then the clock (R690, R762). IS_CTL and PCn_CR are read
after the instruction, so a PRI_WCSR that enables counting or loads a counter is counted itself and one that disables it is
not, and a value written while counting is taken exactly, where R693 says only that the count is inexact: DESIGN CHOICE (log
40). -/
def finish (i : Instr) (before after : State) : State :=
  (after.countEvents before.modeBits (Instr.eventClass i before) (retiredWith after.lastExc)).clockTick

/-- A step that runs no instruction: it is counted for the events that are none of instructions, and takes time (R410,
R690). -/
def State.idle (s : State) (mode : BitVec 2) : State := (s.countEvents mode {} false).clockTick

/-- The substitute instruction entered: as SYS_CALL/b with function code 0xBB, at the entry R383 computes or at the one R335
writes (log 43). -/
def State.enterSubstitute (s : State) : State :=
  let t := s.enterSysCallB 0xBB
  if s.plat.substituteAsWritten then { t with pc := entryAddr s.ibox.priBase 0x5D80 } else t

/-- The substitute instruction: SYS_CALL/b with function code 0xBB, entered in every mode, HM included, where a fetched
SYS_CALL/b is null (R335 against R382; DESIGN CHOICE, log 43). -/
def runSubstitute (s : State) : State :=
  let t := if s.iaMatch then s.raiseIaMatch else s.enterSubstitute
  (t.countEvents s.modeBits {} (retiredWith t.lastExc)).clockTick

/-- Decode the fetched word and run it; a word outside the table is refused (R357, R370; log 33). -/
def runFetched (s : State) : Host.Outcome State Fault Refusal :=
  match decode s.plat.supplement s.ir with
  | none => .refused (.unknownWord s.ir)
  | some i =>
    match exec i s with
    | .next t => .next (finish i s t)
    | .fault f => .fault f
    | .refused r => .refused r

/-- One instruction: fetch, decode, run. -/
def runOne (s : State) : Host.Outcome State Fault Refusal :=
  match ({ s with lastExc := none }).fetch with
  | .trap t => .next (t.idle s.modeBits)
  | .substitute t => .next (runSubstitute t)
  | .word t => runFetched t

/-- An instruction boundary: write errors may be reported, an interrupt is recognised, a halted core waits, else one
instruction runs (R410, R640). -/
def boundary (s : State) : Host.Outcome State Fault Refusal :=
  let t := s.reportLate
  match t.recognised with
  | some e => .next ((t.enterInterrupt e).idle t.modeBits)
  | none => if t.coreState = .halted then .next (({ t with lastExc := none }).idle t.modeBits) else runOne t

/-- One step, an early store doing nothing: the environment's next event, or an instruction boundary; a sleeping core only
waits (R677; log 7). -/
def stepInOrder (s : State) : Host.Outcome State Fault Refusal :=
  match s.inputs with
  | some e :: rest => .next (({ s with inputs := rest }).apply e)
  | none :: rest => if s.coreState = .asleep then .next { s with inputs := rest } else boundary { s with inputs := rest }
  | [] => if s.coreState = .asleep then .next s else boundary s

/-! ## Stores that take effect early (R225; log 27) -/

/-- The state that `n` steps lead to, or the first with no early store to come; none where one of the steps takes an exception
or an interrupt: no instruction after it has changed any state then (R580, R640). -/
def ahead : Nat → State → Option State
  | 0, s => some s
  | n + 1, s =>
    if s.early.isEmpty then some s
    else match stepInOrder { s with lastExc := none } with
      | .next t => if t.lastExc = none then ahead n t else none
      | _ => none

/-- The program comes to every early store, with nothing between that is ordered before it, and no exception. -/
def State.keepsPromises (s : State) : Bool :=
  match ahead (s.inputs.length + (s.early.foldr (fun p k => max p.within k) 0)) s with
  | some t => t.early.isEmpty && !t.earlyBroken
  | none => false

/-- A store may be early: it lies in memory. -/
def State.mayBeEarly (s : State) (p : EarlyStore) : Bool := decide (p.size ≤ 32) && decide (p.addr + p.size ≤ s.plat.memSize)

/-- A store takes effect early, if the program comes to it both with the effect now and without, after however many
instructions: so its datum does not depend on what a load sees of it. -/
def State.foretell (s : State) (p : EarlyStore) : State :=
  let noted := { s with early := s.early ++ [p.over s.codeMem] }
  let done := s.putEarly p
  if s.mayBeEarly p && noted.keepsPromises && done.keepsPromises then done else s

end Sys2Proof.Machine
end

