-- ==== Sys2Proof/Machine/Step.lean ====
section
/-! DEFINITION. One step of the machine, and where a test places an instruction. -/

namespace Sys2Proof.Machine

/-- One step: a store that takes effect early (log 27), or the environment's next event, or an instruction boundary. -/
def step (s : State) : Host.Outcome State Fault Refusal :=
  match s.inputs with
  | some (.earlyStore p) :: rest => .next (({ s with inputs := rest }).foretell p)
  | _ => stepInOrder s

/-- Where a fetch at pc reads memory, as far as the state says it. -/
def State.fetchPlace (s : State) : PAddr :=
  if s.fetchBypasses then fetchPa s.pc
  else match s.itbLookup with
    | .hit _ p => p
    | _ => fetchPa s.pc

/-- The state with an instruction's word placed where the next step fetches, nothing in the way of that fetch
(log 6). -/
def State.withFetchWord (s : State) (nbits w : Nat) : State :=
  { s with
    mem := writeBytes s.mem (loc s.fetchPlace) 4 (BitVec.ofNat 256 (w % 2 ^ nbits % 2 ^ 32))
    icache := [], codeHist := [], early := [], inputs := [], lateErrors := [], armedFetch := none, retJump := none
    coreState := .running }

end Sys2Proof.Machine
end

