-- ==== Sys2Proof/Laws/Encoding.lean ====
section
/-! SUPPORT. The fields of an encoded word are the fields it was made of. -/

namespace Sys2Proof

@[simp] theorem fieldOp_encMem (op : BitVec 6) (ra rb : Reg) (d : BitVec 16) : fieldOp (encMem op ra rb d) = op := by
  unfold fieldOp encMem
  rw [BitVec.extractLsb'_append_eq_of_le (by omega), BitVec.extractLsb'_append_eq_of_le (by omega), BitVec.extractLsb'_append_eq_of_le (by omega), BitVec.extractLsb'_eq_self]

@[simp] theorem fieldRa_encMem (op : BitVec 6) (ra rb : Reg) (d : BitVec 16) : fieldRa (encMem op ra rb d) = ra := by
  unfold fieldRa encMem
  rw [BitVec.extractLsb'_append_eq_of_le (by omega), BitVec.extractLsb'_append_eq_of_le (by omega), BitVec.extractLsb'_append_eq_of_add_le (by omega), BitVec.extractLsb'_eq_self]

@[simp] theorem fieldRb_encMem (op : BitVec 6) (ra rb : Reg) (d : BitVec 16) : fieldRb (encMem op ra rb d) = rb := by
  unfold fieldRb encMem
  rw [BitVec.extractLsb'_append_eq_of_le (by omega), BitVec.extractLsb'_append_eq_of_add_le (by omega), BitVec.extractLsb'_eq_self]

@[simp] theorem fieldDisp16_encMem (op : BitVec 6) (ra rb : Reg) (d : BitVec 16) : fieldDisp16 (encMem op ra rb d) = d := by
  unfold fieldDisp16 encMem
  rw [BitVec.extractLsb'_append_eq_of_add_le (by omega), BitVec.extractLsb'_eq_self]

@[simp] theorem fieldOp_encMemFn (op : BitVec 6) (fn : BitVec 4) (ra rb : Reg) (d : BitVec 12) : fieldOp (encMemFn op fn ra rb d) = op := by
  unfold fieldOp encMemFn
  rw [BitVec.extractLsb'_append_eq_of_le (by omega), BitVec.extractLsb'_append_eq_of_le (by omega), BitVec.extractLsb'_append_eq_of_le (by omega), BitVec.extractLsb'_append_eq_of_le (by omega), BitVec.extractLsb'_eq_self]

@[simp] theorem fieldRa_encMemFn (op : BitVec 6) (fn : BitVec 4) (ra rb : Reg) (d : BitVec 12) : fieldRa (encMemFn op fn ra rb d) = ra := by
  unfold fieldRa encMemFn
  rw [BitVec.extractLsb'_append_eq_of_le (by omega), BitVec.extractLsb'_append_eq_of_le (by omega), BitVec.extractLsb'_append_eq_of_le (by omega), BitVec.extractLsb'_append_eq_of_add_le (by omega), BitVec.extractLsb'_eq_self]

@[simp] theorem fieldRb_encMemFn (op : BitVec 6) (fn : BitVec 4) (ra rb : Reg) (d : BitVec 12) : fieldRb (encMemFn op fn ra rb d) = rb := by
  unfold fieldRb encMemFn
  rw [BitVec.extractLsb'_append_eq_of_le (by omega), BitVec.extractLsb'_append_eq_of_le (by omega), BitVec.extractLsb'_append_eq_of_add_le (by omega), BitVec.extractLsb'_eq_self]

@[simp] theorem fieldFn4_encMemFn (op : BitVec 6) (fn : BitVec 4) (ra rb : Reg) (d : BitVec 12) : fieldFn4 (encMemFn op fn ra rb d) = fn := by
  unfold fieldFn4 encMemFn
  rw [BitVec.extractLsb'_append_eq_of_le (by omega), BitVec.extractLsb'_append_eq_of_add_le (by omega), BitVec.extractLsb'_eq_self]

@[simp] theorem fieldDisp12_encMemFn (op : BitVec 6) (fn : BitVec 4) (ra rb : Reg) (d : BitVec 12) : fieldDisp12 (encMemFn op fn ra rb d) = d := by
  unfold fieldDisp12 encMemFn
  rw [BitVec.extractLsb'_append_eq_of_add_le (by omega), BitVec.extractLsb'_eq_self]

@[simp] theorem fieldOp_encBranch (op : BitVec 6) (ra : Reg) (d : BitVec 21) : fieldOp (encBranch op ra d) = op := by
  unfold fieldOp encBranch
  rw [BitVec.extractLsb'_append_eq_of_le (by omega), BitVec.extractLsb'_append_eq_of_le (by omega), BitVec.extractLsb'_eq_self]

@[simp] theorem fieldRa_encBranch (op : BitVec 6) (ra : Reg) (d : BitVec 21) : fieldRa (encBranch op ra d) = ra := by
  unfold fieldRa encBranch
  rw [BitVec.extractLsb'_append_eq_of_le (by omega), BitVec.extractLsb'_append_eq_of_add_le (by omega), BitVec.extractLsb'_eq_self]

@[simp] theorem fieldDisp21_encBranch (op : BitVec 6) (ra : Reg) (d : BitVec 21) : fieldDisp21 (encBranch op ra d) = d := by
  unfold fieldDisp21 encBranch
  rw [BitVec.extractLsb'_append_eq_of_add_le (by omega), BitVec.extractLsb'_eq_self]

@[simp] theorem fieldOp_encOpr (op : BitVec 6) (fn : BitVec 8) (ra rb rc : Reg) : fieldOp (encOpr op fn ra rb rc) = op := by
  unfold fieldOp encOpr
  rw [BitVec.extractLsb'_append_eq_of_le (by omega), BitVec.extractLsb'_append_eq_of_le (by omega), BitVec.extractLsb'_append_eq_of_le (by omega), BitVec.extractLsb'_append_eq_of_le (by omega), BitVec.extractLsb'_append_eq_of_le (by omega), BitVec.extractLsb'_eq_self]

@[simp] theorem fieldRa_encOpr (op : BitVec 6) (fn : BitVec 8) (ra rb rc : Reg) : fieldRa (encOpr op fn ra rb rc) = ra := by
  unfold fieldRa encOpr
  rw [BitVec.extractLsb'_append_eq_of_le (by omega), BitVec.extractLsb'_append_eq_of_le (by omega), BitVec.extractLsb'_append_eq_of_le (by omega), BitVec.extractLsb'_append_eq_of_le (by omega), BitVec.extractLsb'_append_eq_of_add_le (by omega), BitVec.extractLsb'_eq_self]

@[simp] theorem fieldRb_encOpr (op : BitVec 6) (fn : BitVec 8) (ra rb rc : Reg) : fieldRb (encOpr op fn ra rb rc) = rb := by
  unfold fieldRb encOpr
  rw [BitVec.extractLsb'_append_eq_of_le (by omega), BitVec.extractLsb'_append_eq_of_le (by omega), BitVec.extractLsb'_append_eq_of_le (by omega), BitVec.extractLsb'_append_eq_of_add_le (by omega), BitVec.extractLsb'_eq_self]

@[simp] theorem fieldRc_encOpr (op : BitVec 6) (fn : BitVec 8) (ra rb rc : Reg) : fieldRc (encOpr op fn ra rb rc) = rc := by
  unfold fieldRc encOpr
  rw [BitVec.extractLsb'_append_eq_of_add_le (by omega), BitVec.extractLsb'_eq_self]

@[simp] theorem fieldZero_encOpr (op : BitVec 6) (fn : BitVec 8) (ra rb rc : Reg) : fieldZero (encOpr op fn ra rb rc) = 0 := by
  unfold fieldZero encOpr
  rw [BitVec.extractLsb'_append_eq_of_le (by omega), BitVec.extractLsb'_append_eq_of_le (by omega), BitVec.extractLsb'_append_eq_of_add_le (by omega), BitVec.extractLsb'_eq_self]

@[simp] theorem fieldFn8_encOpr (op : BitVec 6) (fn : BitVec 8) (ra rb rc : Reg) : fieldFn8 (encOpr op fn ra rb rc) = fn := by
  unfold fieldFn8 encOpr
  rw [BitVec.extractLsb'_append_eq_of_le (by omega), BitVec.extractLsb'_append_eq_of_add_le (by omega), BitVec.extractLsb'_eq_self]

@[simp] theorem fieldOp_encOprL (op : BitVec 6) (fn : BitVec 8) (ra : Reg) (lit : BitVec 8) (rc : Reg) : fieldOp (encOprL op fn ra lit rc) = op := by
  unfold fieldOp encOprL
  rw [BitVec.extractLsb'_append_eq_of_le (by omega), BitVec.extractLsb'_append_eq_of_le (by omega), BitVec.extractLsb'_append_eq_of_le (by omega), BitVec.extractLsb'_append_eq_of_le (by omega), BitVec.extractLsb'_eq_self]

@[simp] theorem fieldRa_encOprL (op : BitVec 6) (fn : BitVec 8) (ra : Reg) (lit : BitVec 8) (rc : Reg) : fieldRa (encOprL op fn ra lit rc) = ra := by
  unfold fieldRa encOprL
  rw [BitVec.extractLsb'_append_eq_of_le (by omega), BitVec.extractLsb'_append_eq_of_le (by omega), BitVec.extractLsb'_append_eq_of_le (by omega), BitVec.extractLsb'_append_eq_of_add_le (by omega), BitVec.extractLsb'_eq_self]

@[simp] theorem fieldRc_encOprL (op : BitVec 6) (fn : BitVec 8) (ra : Reg) (lit : BitVec 8) (rc : Reg) : fieldRc (encOprL op fn ra lit rc) = rc := by
  unfold fieldRc encOprL
  rw [BitVec.extractLsb'_append_eq_of_add_le (by omega), BitVec.extractLsb'_eq_self]

@[simp] theorem fieldLit_encOprL (op : BitVec 6) (fn : BitVec 8) (ra : Reg) (lit : BitVec 8) (rc : Reg) : fieldLit (encOprL op fn ra lit rc) = lit := by
  unfold fieldLit encOprL
  rw [BitVec.extractLsb'_append_eq_of_le (by omega), BitVec.extractLsb'_append_eq_of_le (by omega), BitVec.extractLsb'_append_eq_of_add_le (by omega), BitVec.extractLsb'_eq_self]

@[simp] theorem fieldFn8_encOprL (op : BitVec 6) (fn : BitVec 8) (ra : Reg) (lit : BitVec 8) (rc : Reg) : fieldFn8 (encOprL op fn ra lit rc) = fn := by
  unfold fieldFn8 encOprL
  rw [BitVec.extractLsb'_append_eq_of_le (by omega), BitVec.extractLsb'_append_eq_of_add_le (by omega), BitVec.extractLsb'_eq_self]

@[simp] theorem fieldOp_encCsr (fn : BitVec 8) (ra : Reg) (idx : BitVec 8) : fieldOp (encCsr fn ra idx) = 0x06 := by
  unfold fieldOp encCsr
  rw [BitVec.extractLsb'_append_eq_of_le (by omega), BitVec.extractLsb'_append_eq_of_le (by omega), BitVec.extractLsb'_append_eq_of_le (by omega), BitVec.extractLsb'_append_eq_of_le (by omega), BitVec.extractLsb'_eq_self]

@[simp] theorem fieldRa_encCsr (fn : BitVec 8) (ra : Reg) (idx : BitVec 8) : fieldRa (encCsr fn ra idx) = ra := by
  unfold fieldRa encCsr
  rw [BitVec.extractLsb'_append_eq_of_le (by omega), BitVec.extractLsb'_append_eq_of_le (by omega), BitVec.extractLsb'_append_eq_of_le (by omega), BitVec.extractLsb'_append_eq_of_add_le (by omega), BitVec.extractLsb'_eq_self]

@[simp] theorem fieldRb_encCsr (fn : BitVec 8) (ra : Reg) (idx : BitVec 8) : fieldRb (encCsr fn ra idx) = 31 := by
  unfold fieldRb encCsr
  rw [BitVec.extractLsb'_append_eq_of_le (by omega), BitVec.extractLsb'_append_eq_of_le (by omega), BitVec.extractLsb'_append_eq_of_add_le (by omega), BitVec.extractLsb'_eq_self]

@[simp] theorem fieldFnHi_encCsr (fn : BitVec 8) (ra : Reg) (idx : BitVec 8) : fieldFnHi (encCsr fn ra idx) = fn := by
  unfold fieldFnHi encCsr
  rw [BitVec.extractLsb'_append_eq_of_le (by omega), BitVec.extractLsb'_append_eq_of_add_le (by omega), BitVec.extractLsb'_eq_self]

@[simp] theorem fieldFnLo_encCsr (fn : BitVec 8) (ra : Reg) (idx : BitVec 8) : fieldFnLo (encCsr fn ra idx) = idx := by
  unfold fieldFnLo encCsr
  rw [BitVec.extractLsb'_append_eq_of_add_le (by omega), BitVec.extractLsb'_eq_self]

@[simp] theorem fieldOp_encSys (b : BitVec 1) (fn : BitVec 25) : fieldOp (encSys b fn) = 0x00 := by
  unfold fieldOp encSys
  rw [BitVec.extractLsb'_append_eq_of_le (by omega), BitVec.extractLsb'_append_eq_of_le (by omega), BitVec.extractLsb'_eq_self]

@[simp] theorem fieldB25_encSys (b : BitVec 1) (fn : BitVec 25) : fieldB25 (encSys b fn) = b := by
  unfold fieldB25 encSys
  rw [BitVec.extractLsb'_append_eq_of_le (by omega), BitVec.extractLsb'_append_eq_of_add_le (by omega), BitVec.extractLsb'_eq_self]

@[simp] theorem fieldFn25_encSys (b : BitVec 1) (fn : BitVec 25) : fieldFn25 (encSys b fn) = fn := by
  unfold fieldFn25 encSys
  rw [BitVec.extractLsb'_append_eq_of_add_le (by omega), BitVec.extractLsb'_eq_self]

@[simp] theorem fieldOp_encPriRet (b : BitVec 1) (ra : Reg) : fieldOp (encPriRet b ra) = 0x07 := by
  unfold fieldOp encPriRet
  rw [BitVec.extractLsb'_append_eq_of_le (by omega), BitVec.extractLsb'_append_eq_of_le (by omega), BitVec.extractLsb'_append_eq_of_le (by omega), BitVec.extractLsb'_eq_self]

@[simp] theorem fieldRa_encPriRet (b : BitVec 1) (ra : Reg) : fieldRa (encPriRet b ra) = ra := by
  unfold fieldRa encPriRet
  rw [BitVec.extractLsb'_append_eq_of_le (by omega), BitVec.extractLsb'_append_eq_of_le (by omega), BitVec.extractLsb'_append_eq_of_add_le (by omega), BitVec.extractLsb'_eq_self]

@[simp] theorem fieldB20_encPriRet (b : BitVec 1) (ra : Reg) : fieldB20 (encPriRet b ra) = b := by
  unfold fieldB20 encPriRet
  rw [BitVec.extractLsb'_append_eq_of_le (by omega), BitVec.extractLsb'_append_eq_of_add_le (by omega), BitVec.extractLsb'_eq_self]

/-- The high byte of a 16-bit field. -/
@[simp] theorem fieldFnHi_encMem (op : BitVec 6) (ra rb : Reg) (d : BitVec 16) :
    fieldFnHi (encMem op ra rb d) = d.extractLsb' 8 8 := by
  unfold fieldFnHi encMem
  rw [BitVec.extractLsb'_append_eq_of_add_le (by omega)]

end Sys2Proof
end

