-- ==== Sys2Proof/Laws/PerInstr.lean ====
section
/-! SUPPORT. Statements about every instruction as syntax, one lemma per constructor. -/

namespace Sys2Proof.Laws.RoundTrip

set_option Elab.async false

/-- The tables decode the word of a well-formed instruction to that instruction (R361 to R368, R370). -/
def Statement (i : Instr) : Prop := i.wellFormed = true → ∀ w, encode i = some w → decodeTable w = some i

theorem sysCall (fn : BitVec 25) : Statement (.sysCall fn) := by
  rintro - w ⟨⟩
  simp [decodeTable]

theorem sysCallB (fn : BitVec 25) : Statement (.sysCallB fn) := by
  rintro - w ⟨⟩
  simp [decodeTable]

theorem call (ra : Reg) (rb : Reg) (hint : BitVec 16) : Statement (.call ra rb hint) := by
  rintro - w ⟨⟩
  simp [decodeTable]

theorem ret (ra : Reg) (rb : Reg) (hint : BitVec 16) : Statement (.ret ra rb hint) := by
  rintro - w ⟨⟩
  simp [decodeTable]

theorem jmp (ra : Reg) (rb : Reg) (hint : BitVec 16) : Statement (.jmp ra rb hint) := by
  rintro - w ⟨⟩
  simp [decodeTable]

theorem br (ra : Reg) (disp : BitVec 21) : Statement (.br ra disp) := by
  rintro - w ⟨⟩
  simp [decodeTable]

theorem bsr (ra : Reg) (disp : BitVec 21) : Statement (.bsr ra disp) := by
  rintro - w ⟨⟩
  simp [decodeTable]

theorem beq (ra : Reg) (disp : BitVec 21) : Statement (.beq ra disp) := by
  rintro - w ⟨⟩
  simp [decodeTable]

theorem bne (ra : Reg) (disp : BitVec 21) : Statement (.bne ra disp) := by
  rintro - w ⟨⟩
  simp [decodeTable]

theorem blt (ra : Reg) (disp : BitVec 21) : Statement (.blt ra disp) := by
  rintro - w ⟨⟩
  simp [decodeTable]

theorem ble (ra : Reg) (disp : BitVec 21) : Statement (.ble ra disp) := by
  rintro - w ⟨⟩
  simp [decodeTable]

theorem bgt (ra : Reg) (disp : BitVec 21) : Statement (.bgt ra disp) := by
  rintro - w ⟨⟩
  simp [decodeTable]

theorem bge (ra : Reg) (disp : BitVec 21) : Statement (.bge ra disp) := by
  rintro - w ⟨⟩
  simp [decodeTable]

theorem blbc (ra : Reg) (disp : BitVec 21) : Statement (.blbc ra disp) := by
  rintro - w ⟨⟩
  simp [decodeTable]

theorem blbs (ra : Reg) (disp : BitVec 21) : Statement (.blbs ra disp) := by
  rintro - w ⟨⟩
  simp [decodeTable]

theorem fbeq (fa : Reg) (disp : BitVec 21) : Statement (.fbeq fa disp) := by
  rintro - w ⟨⟩
  simp [decodeTable]

theorem fbne (fa : Reg) (disp : BitVec 21) : Statement (.fbne fa disp) := by
  rintro - w ⟨⟩
  simp [decodeTable]

theorem fblt (fa : Reg) (disp : BitVec 21) : Statement (.fblt fa disp) := by
  rintro - w ⟨⟩
  simp [decodeTable]

theorem fble (fa : Reg) (disp : BitVec 21) : Statement (.fble fa disp) := by
  rintro - w ⟨⟩
  simp [decodeTable]

theorem fbgt (fa : Reg) (disp : BitVec 21) : Statement (.fbgt fa disp) := by
  rintro - w ⟨⟩
  simp [decodeTable]

theorem fbge (fa : Reg) (disp : BitVec 21) : Statement (.fbge fa disp) := by
  rintro - w ⟨⟩
  simp [decodeTable]

theorem memb : Statement (.memb) := by
  rintro - w ⟨⟩
  rfl

theorem imemb : Statement (.imemb) := by
  rintro - w ⟨⟩
  rfl

theorem rtc (ra : Reg) (rb : Reg) : Statement (.rtc ra rb) := by
  rintro - w ⟨⟩
  simp [decodeTable, decodeMisc]

theorem rcid (ra : Reg) : Statement (.rcid ra) := by
  rintro - w ⟨⟩
  simp [decodeTable, decodeMisc]

theorem halt : Statement (.halt) := by
  rintro - w ⟨⟩
  rfl

theorem rdF (ra : Reg) : Statement (.rdF ra) := by
  rintro - w ⟨⟩
  simp [decodeTable, decodeMisc]

theorem wrF (ra : Reg) : Statement (.wrF ra) := by
  rintro - w ⟨⟩
  simp [decodeTable, decodeMisc]

theorem rtid (ra : Reg) : Statement (.rtid ra) := by
  rintro - w ⟨⟩
  simp [decodeTable, decodeMisc]

theorem priRcsr (ra : Reg) (idx : BitVec 8) : Statement (.priRcsr ra idx) := by
  rintro - w ⟨⟩
  simp [decodeTable, decodeMisc]

theorem priWcsr (ra : Reg) (idx : BitVec 8) : Statement (.priWcsr ra idx) := by
  rintro - w ⟨⟩
  simp [decodeTable, decodeMisc]

theorem priRet (ra : Reg) : Statement (.priRet ra) := by
  rintro - w ⟨⟩
  simp [decodeTable]

theorem priRetB (ra : Reg) : Statement (.priRetB ra) := by
  rintro - w ⟨⟩
  simp [decodeTable]

theorem lldw (ra : Reg) (rb : Reg) (disp : BitVec 12) : Statement (.lldw ra rb disp) := by
  rintro - w ⟨⟩
  simp [decodeTable, decodeFn08]

theorem lldl (ra : Reg) (rb : Reg) (disp : BitVec 12) : Statement (.lldl ra rb disp) := by
  rintro - w ⟨⟩
  simp [decodeTable, decodeFn08]

theorem ldwInc (ra : Reg) (rb : Reg) (disp : BitVec 12) : Statement (.ldwInc ra rb disp) := by
  rintro - w ⟨⟩
  simp [decodeTable, decodeFn08]

theorem ldlInc (ra : Reg) (rb : Reg) (disp : BitVec 12) : Statement (.ldlInc ra rb disp) := by
  rintro - w ⟨⟩
  simp [decodeTable, decodeFn08]

theorem ldwDec (ra : Reg) (rb : Reg) (disp : BitVec 12) : Statement (.ldwDec ra rb disp) := by
  rintro - w ⟨⟩
  simp [decodeTable, decodeFn08]

theorem ldlDec (ra : Reg) (rb : Reg) (disp : BitVec 12) : Statement (.ldlDec ra rb disp) := by
  rintro - w ⟨⟩
  simp [decodeTable, decodeFn08]

theorem ldwSet (ra : Reg) (rb : Reg) (disp : BitVec 12) : Statement (.ldwSet ra rb disp) := by
  rintro - w ⟨⟩
  simp [decodeTable, decodeFn08]

theorem ldlSet (ra : Reg) (rb : Reg) (disp : BitVec 12) : Statement (.ldlSet ra rb disp) := by
  rintro - w ⟨⟩
  simp [decodeTable, decodeFn08]

theorem lstw (ra : Reg) (rb : Reg) (disp : BitVec 12) : Statement (.lstw ra rb disp) := by
  rintro - w ⟨⟩
  simp [decodeTable, decodeFn08]

theorem lstl (ra : Reg) (rb : Reg) (disp : BitVec 12) : Statement (.lstl ra rb disp) := by
  rintro - w ⟨⟩
  simp [decodeTable, decodeFn08]

theorem ldwNc (ra : Reg) (rb : Reg) (disp : BitVec 12) : Statement (.ldwNc ra rb disp) := by
  rintro - w ⟨⟩
  simp [decodeTable, decodeFn08]

theorem ldlNc (ra : Reg) (rb : Reg) (disp : BitVec 12) : Statement (.ldlNc ra rb disp) := by
  rintro - w ⟨⟩
  simp [decodeTable, decodeFn08]

theorem lddNc (fa : Reg) (rb : Reg) (disp : BitVec 12) : Statement (.lddNc fa rb disp) := by
  rintro - w ⟨⟩
  simp [decodeTable, decodeFn08]

theorem stwNc (ra : Reg) (rb : Reg) (disp : BitVec 12) : Statement (.stwNc ra rb disp) := by
  rintro - w ⟨⟩
  simp [decodeTable, decodeFn08]

theorem stlNc (ra : Reg) (rb : Reg) (disp : BitVec 12) : Statement (.stlNc ra rb disp) := by
  rintro - w ⟨⟩
  simp [decodeTable, decodeFn08]

theorem stdNc (fa : Reg) (rb : Reg) (disp : BitVec 12) : Statement (.stdNc fa rb disp) := by
  rintro - w ⟨⟩
  simp [decodeTable, decodeFn08]

theorem ldwe (fa : Reg) (rb : Reg) (disp : BitVec 16) : Statement (.ldwe fa rb disp) := by
  rintro - w ⟨⟩
  simp [decodeTable]

theorem ldse (fa : Reg) (rb : Reg) (disp : BitVec 16) : Statement (.ldse fa rb disp) := by
  rintro - w ⟨⟩
  simp [decodeTable]

theorem ldde (fa : Reg) (rb : Reg) (disp : BitVec 16) : Statement (.ldde fa rb disp) := by
  rintro - w ⟨⟩
  simp [decodeTable]

theorem vlds (fa : Reg) (rb : Reg) (disp : BitVec 16) : Statement (.vlds fa rb disp) := by
  rintro - w ⟨⟩
  simp [decodeTable]

theorem vldd (fa : Reg) (rb : Reg) (disp : BitVec 16) : Statement (.vldd fa rb disp) := by
  rintro - w ⟨⟩
  simp [decodeTable]

theorem vsts (fa : Reg) (rb : Reg) (disp : BitVec 16) : Statement (.vsts fa rb disp) := by
  rintro - w ⟨⟩
  simp [decodeTable]

theorem vstd (fa : Reg) (rb : Reg) (disp : BitVec 16) : Statement (.vstd fa rb disp) := by
  rintro - w ⟨⟩
  simp [decodeTable]

theorem addw (ra : Reg) (rb : Reg) (rc : Reg) : Statement (.addw ra rb rc) := by
  rintro - w ⟨⟩
  simp [decodeTable, decodeOpr10]

theorem addwL (ra : Reg) (lit : BitVec 8) (rc : Reg) : Statement (.addwL ra lit rc) := by
  rintro - w ⟨⟩
  simp [decodeTable, decodeOpr12]

theorem subw (ra : Reg) (rb : Reg) (rc : Reg) : Statement (.subw ra rb rc) := by
  rintro - w ⟨⟩
  simp [decodeTable, decodeOpr10]

theorem subwL (ra : Reg) (lit : BitVec 8) (rc : Reg) : Statement (.subwL ra lit rc) := by
  rintro - w ⟨⟩
  simp [decodeTable, decodeOpr12]

theorem addl (ra : Reg) (rb : Reg) (rc : Reg) : Statement (.addl ra rb rc) := by
  rintro - w ⟨⟩
  simp [decodeTable, decodeOpr10]

theorem addlL (ra : Reg) (lit : BitVec 8) (rc : Reg) : Statement (.addlL ra lit rc) := by
  rintro - w ⟨⟩
  simp [decodeTable, decodeOpr12]

theorem subl (ra : Reg) (rb : Reg) (rc : Reg) : Statement (.subl ra rb rc) := by
  rintro - w ⟨⟩
  simp [decodeTable, decodeOpr10]

theorem sublL (ra : Reg) (lit : BitVec 8) (rc : Reg) : Statement (.sublL ra lit rc) := by
  rintro - w ⟨⟩
  simp [decodeTable, decodeOpr12]

theorem mulw (ra : Reg) (rb : Reg) (rc : Reg) : Statement (.mulw ra rb rc) := by
  rintro - w ⟨⟩
  simp [decodeTable, decodeOpr10]

theorem mulwL (ra : Reg) (lit : BitVec 8) (rc : Reg) : Statement (.mulwL ra lit rc) := by
  rintro - w ⟨⟩
  simp [decodeTable, decodeOpr12]

theorem mull (ra : Reg) (rb : Reg) (rc : Reg) : Statement (.mull ra rb rc) := by
  rintro - w ⟨⟩
  simp [decodeTable, decodeOpr10]

theorem mullL (ra : Reg) (lit : BitVec 8) (rc : Reg) : Statement (.mullL ra lit rc) := by
  rintro - w ⟨⟩
  simp [decodeTable, decodeOpr12]

theorem umulh (ra : Reg) (rb : Reg) (rc : Reg) : Statement (.umulh ra rb rc) := by
  rintro - w ⟨⟩
  simp [decodeTable, decodeOpr10]

theorem umulhL (ra : Reg) (lit : BitVec 8) (rc : Reg) : Statement (.umulhL ra lit rc) := by
  rintro - w ⟨⟩
  simp [decodeTable, decodeOpr12]

theorem cmpeq (ra : Reg) (rb : Reg) (rc : Reg) : Statement (.cmpeq ra rb rc) := by
  rintro - w ⟨⟩
  simp [decodeTable, decodeOpr10]

theorem cmpeqL (ra : Reg) (lit : BitVec 8) (rc : Reg) : Statement (.cmpeqL ra lit rc) := by
  rintro - w ⟨⟩
  simp [decodeTable, decodeOpr12]

theorem cmplt (ra : Reg) (rb : Reg) (rc : Reg) : Statement (.cmplt ra rb rc) := by
  rintro - w ⟨⟩
  simp [decodeTable, decodeOpr10]

theorem cmpltL (ra : Reg) (lit : BitVec 8) (rc : Reg) : Statement (.cmpltL ra lit rc) := by
  rintro - w ⟨⟩
  simp [decodeTable, decodeOpr12]

theorem cmple (ra : Reg) (rb : Reg) (rc : Reg) : Statement (.cmple ra rb rc) := by
  rintro - w ⟨⟩
  simp [decodeTable, decodeOpr10]

theorem cmpleL (ra : Reg) (lit : BitVec 8) (rc : Reg) : Statement (.cmpleL ra lit rc) := by
  rintro - w ⟨⟩
  simp [decodeTable, decodeOpr12]

theorem cmpult (ra : Reg) (rb : Reg) (rc : Reg) : Statement (.cmpult ra rb rc) := by
  rintro - w ⟨⟩
  simp [decodeTable, decodeOpr10]

theorem cmpultL (ra : Reg) (lit : BitVec 8) (rc : Reg) : Statement (.cmpultL ra lit rc) := by
  rintro - w ⟨⟩
  simp [decodeTable, decodeOpr12]

theorem cmpule (ra : Reg) (rb : Reg) (rc : Reg) : Statement (.cmpule ra rb rc) := by
  rintro - w ⟨⟩
  simp [decodeTable, decodeOpr10]

theorem cmpuleL (ra : Reg) (lit : BitVec 8) (rc : Reg) : Statement (.cmpuleL ra lit rc) := by
  rintro - w ⟨⟩
  simp [decodeTable, decodeOpr12]

theorem and (ra : Reg) (rb : Reg) (rc : Reg) : Statement (.and ra rb rc) := by
  rintro - w ⟨⟩
  simp [decodeTable, decodeOpr10]

theorem andL (ra : Reg) (lit : BitVec 8) (rc : Reg) : Statement (.andL ra lit rc) := by
  rintro - w ⟨⟩
  simp [decodeTable, decodeOpr12]

theorem bic (ra : Reg) (rb : Reg) (rc : Reg) : Statement (.bic ra rb rc) := by
  rintro - w ⟨⟩
  simp [decodeTable, decodeOpr10]

theorem bicL (ra : Reg) (lit : BitVec 8) (rc : Reg) : Statement (.bicL ra lit rc) := by
  rintro - w ⟨⟩
  simp [decodeTable, decodeOpr12]

theorem bis (ra : Reg) (rb : Reg) (rc : Reg) : Statement (.bis ra rb rc) := by
  intro h w hw
  cases hw
  have hn : encOpr 0x10 0x3A ra rb rc ≠ 0x43FF075F := by
    intro he
    have h1 : ra = 31 := by rw [← fieldRa_encOpr 0x10 0x3A ra rb rc, he]; rfl
    have h2 : rb = 31 := by rw [← fieldRb_encOpr 0x10 0x3A ra rb rc, he]; rfl
    have h3 : rc = 31 := by rw [← fieldRc_encOpr 0x10 0x3A ra rb rc, he]; rfl
    subst h1 h2 h3
    exact absurd h (by decide)
  simp [decodeTable, decodeOpr10]
  exact hn

theorem bisL (ra : Reg) (lit : BitVec 8) (rc : Reg) : Statement (.bisL ra lit rc) := by
  rintro - w ⟨⟩
  simp [decodeTable, decodeOpr12]

theorem ornot (ra : Reg) (rb : Reg) (rc : Reg) : Statement (.ornot ra rb rc) := by
  rintro - w ⟨⟩
  simp [decodeTable, decodeOpr10]

theorem ornotL (ra : Reg) (lit : BitVec 8) (rc : Reg) : Statement (.ornotL ra lit rc) := by
  rintro - w ⟨⟩
  simp [decodeTable, decodeOpr12]

theorem xor (ra : Reg) (rb : Reg) (rc : Reg) : Statement (.xor ra rb rc) := by
  rintro - w ⟨⟩
  simp [decodeTable, decodeOpr10]

theorem xorL (ra : Reg) (lit : BitVec 8) (rc : Reg) : Statement (.xorL ra lit rc) := by
  rintro - w ⟨⟩
  simp [decodeTable, decodeOpr12]

theorem eqv (ra : Reg) (rb : Reg) (rc : Reg) : Statement (.eqv ra rb rc) := by
  rintro - w ⟨⟩
  simp [decodeTable, decodeOpr10]

theorem eqvL (ra : Reg) (lit : BitVec 8) (rc : Reg) : Statement (.eqvL ra lit rc) := by
  rintro - w ⟨⟩
  simp [decodeTable, decodeOpr12]

theorem nop : Statement (.nop) := by
  rintro - w ⟨⟩
  rfl

theorem fimovs (fa : Reg) (rc : Reg) : Statement (.fimovs fa rc) := by
  rintro - w ⟨⟩
  simp [decodeTable, decodeOpr10]

theorem fimovd (fa : Reg) (rc : Reg) : Statement (.fimovd fa rc) := by
  rintro - w ⟨⟩
  simp [decodeTable, decodeOpr10]

theorem faddd (fa : Reg) (fb : Reg) (fc : Reg) : Statement (.faddd fa fb fc) := by
  rintro - w ⟨⟩
  simp [decodeTable, decodeOpr18]

theorem ifmovs (ra : Reg) (fc : Reg) : Statement (.ifmovs ra fc) := by
  rintro - w ⟨⟩
  simp [decodeTable, decodeOpr18]

theorem ifmovd (ra : Reg) (fc : Reg) : Statement (.ifmovd ra fc) := by
  rintro - w ⟨⟩
  simp [decodeTable, decodeOpr18]

theorem rfpcr (fa : Reg) : Statement (.rfpcr fa) := by
  rintro - w ⟨⟩
  simp [decodeTable, decodeOpr18]

theorem wfpcr (fa : Reg) : Statement (.wfpcr fa) := by
  rintro - w ⟨⟩
  simp [decodeTable, decodeOpr18]

theorem setfpec0 : Statement (.setfpec0) := by
  rintro - w ⟨⟩
  rfl

theorem setfpec1 : Statement (.setfpec1) := by
  rintro - w ⟨⟩
  rfl

theorem setfpec2 : Statement (.setfpec2) := by
  rintro - w ⟨⟩
  rfl

theorem setfpec3 : Statement (.setfpec3) := by
  rintro - w ⟨⟩
  rfl

theorem vaddd (fa : Reg) (fb : Reg) (fc : Reg) : Statement (.vaddd fa fb fc) := by
  rintro - w ⟨⟩
  simp [decodeTable, decodeOpr1A]

theorem vldwU (fa : Reg) (rb : Reg) (disp : BitVec 12) : Statement (.vldwU fa rb disp) := by
  rintro - w ⟨⟩
  simp [decodeTable, decodeFn1C]

theorem vstwU (fa : Reg) (rb : Reg) (disp : BitVec 12) : Statement (.vstwU fa rb disp) := by
  rintro - w ⟨⟩
  simp [decodeTable, decodeFn1C]

theorem vldsU (fa : Reg) (rb : Reg) (disp : BitVec 12) : Statement (.vldsU fa rb disp) := by
  rintro - w ⟨⟩
  simp [decodeTable, decodeFn1C]

theorem vstsU (fa : Reg) (rb : Reg) (disp : BitVec 12) : Statement (.vstsU fa rb disp) := by
  rintro - w ⟨⟩
  simp [decodeTable, decodeFn1C]

theorem vlddU (fa : Reg) (rb : Reg) (disp : BitVec 12) : Statement (.vlddU fa rb disp) := by
  rintro - w ⟨⟩
  simp [decodeTable, decodeFn1C]

theorem vstdU (fa : Reg) (rb : Reg) (disp : BitVec 12) : Statement (.vstdU fa rb disp) := by
  rintro - w ⟨⟩
  simp [decodeTable, decodeFn1C]

theorem vstwUl (fa : Reg) (rb : Reg) (disp : BitVec 12) : Statement (.vstwUl fa rb disp) := by
  rintro - w ⟨⟩
  simp [decodeTable, decodeFn1C]

theorem vstwUh (fa : Reg) (rb : Reg) (disp : BitVec 12) : Statement (.vstwUh fa rb disp) := by
  rintro - w ⟨⟩
  simp [decodeTable, decodeFn1C]

theorem vstsUl (fa : Reg) (rb : Reg) (disp : BitVec 12) : Statement (.vstsUl fa rb disp) := by
  rintro - w ⟨⟩
  simp [decodeTable, decodeFn1C]

theorem vstsUh (fa : Reg) (rb : Reg) (disp : BitVec 12) : Statement (.vstsUh fa rb disp) := by
  rintro - w ⟨⟩
  simp [decodeTable, decodeFn1C]

theorem vstdUl (fa : Reg) (rb : Reg) (disp : BitVec 12) : Statement (.vstdUl fa rb disp) := by
  rintro - w ⟨⟩
  simp [decodeTable, decodeFn1C]

theorem vstdUh (fa : Reg) (rb : Reg) (disp : BitVec 12) : Statement (.vstdUh fa rb disp) := by
  rintro - w ⟨⟩
  simp [decodeTable, decodeFn1C]

theorem vlddNc (fa : Reg) (rb : Reg) (disp : BitVec 12) : Statement (.vlddNc fa rb disp) := by
  rintro - w ⟨⟩
  simp [decodeTable, decodeFn1C]

theorem vstdNc (fa : Reg) (rb : Reg) (disp : BitVec 12) : Statement (.vstdNc fa rb disp) := by
  rintro - w ⟨⟩
  simp [decodeTable, decodeFn1C]

theorem ldbu (ra : Reg) (rb : Reg) (disp : BitVec 16) : Statement (.ldbu ra rb disp) := by
  rintro - w ⟨⟩
  simp [decodeTable]

theorem ldhu (ra : Reg) (rb : Reg) (disp : BitVec 16) : Statement (.ldhu ra rb disp) := by
  rintro - w ⟨⟩
  simp [decodeTable]

theorem ldw (ra : Reg) (rb : Reg) (disp : BitVec 16) : Statement (.ldw ra rb disp) := by
  rintro - w ⟨⟩
  simp [decodeTable]

theorem ldl (ra : Reg) (rb : Reg) (disp : BitVec 16) : Statement (.ldl ra rb disp) := by
  rintro - w ⟨⟩
  simp [decodeTable]

theorem ldlU (ra : Reg) (rb : Reg) (disp : BitVec 16) : Statement (.ldlU ra rb disp) := by
  rintro - w ⟨⟩
  simp [decodeTable]

theorem flds (fa : Reg) (rb : Reg) (disp : BitVec 16) : Statement (.flds fa rb disp) := by
  rintro - w ⟨⟩
  simp [decodeTable]

theorem fldd (fa : Reg) (rb : Reg) (disp : BitVec 16) : Statement (.fldd fa rb disp) := by
  rintro - w ⟨⟩
  simp [decodeTable]

theorem stb (ra : Reg) (rb : Reg) (disp : BitVec 16) : Statement (.stb ra rb disp) := by
  rintro - w ⟨⟩
  simp [decodeTable]

theorem sth (ra : Reg) (rb : Reg) (disp : BitVec 16) : Statement (.sth ra rb disp) := by
  rintro - w ⟨⟩
  simp [decodeTable]

theorem stw (ra : Reg) (rb : Reg) (disp : BitVec 16) : Statement (.stw ra rb disp) := by
  rintro - w ⟨⟩
  simp [decodeTable]

theorem stl (ra : Reg) (rb : Reg) (disp : BitVec 16) : Statement (.stl ra rb disp) := by
  rintro - w ⟨⟩
  simp [decodeTable]

theorem stlU (ra : Reg) (rb : Reg) (disp : BitVec 16) : Statement (.stlU ra rb disp) := by
  rintro - w ⟨⟩
  simp [decodeTable]

theorem fsts (fa : Reg) (rb : Reg) (disp : BitVec 16) : Statement (.fsts fa rb disp) := by
  rintro - w ⟨⟩
  simp [decodeTable]

theorem fstd (fa : Reg) (rb : Reg) (disp : BitVec 16) : Statement (.fstd fa rb disp) := by
  rintro - w ⟨⟩
  simp [decodeTable]

theorem ldi (ra : Reg) (rb : Reg) (disp : BitVec 16) : Statement (.ldi ra rb disp) := by
  rintro - w ⟨⟩
  simp [decodeTable]

theorem ldih (ra : Reg) (rb : Reg) (disp : BitVec 16) : Statement (.ldih ra rb disp) := by
  rintro - w ⟨⟩
  simp [decodeTable]

theorem priLdwP (ra : Reg) (rb : Reg) (disp : BitVec 12) : Statement (.priLdwP ra rb disp) := by
  rintro - w ⟨⟩

theorem priLdlP (ra : Reg) (rb : Reg) (disp : BitVec 12) : Statement (.priLdlP ra rb disp) := by
  rintro - w ⟨⟩

theorem priLdwIncP (ra : Reg) (rb : Reg) (disp : BitVec 12) : Statement (.priLdwIncP ra rb disp) := by
  rintro - w ⟨⟩

theorem priLdlIncP (ra : Reg) (rb : Reg) (disp : BitVec 12) : Statement (.priLdlIncP ra rb disp) := by
  rintro - w ⟨⟩

theorem priLdwDecP (ra : Reg) (rb : Reg) (disp : BitVec 12) : Statement (.priLdwDecP ra rb disp) := by
  rintro - w ⟨⟩

theorem priLdlDecP (ra : Reg) (rb : Reg) (disp : BitVec 12) : Statement (.priLdlDecP ra rb disp) := by
  rintro - w ⟨⟩

theorem priLdwSetP (ra : Reg) (rb : Reg) (disp : BitVec 12) : Statement (.priLdwSetP ra rb disp) := by
  rintro - w ⟨⟩

theorem priLdlSetP (ra : Reg) (rb : Reg) (disp : BitVec 12) : Statement (.priLdlSetP ra rb disp) := by
  rintro - w ⟨⟩

theorem priLdwV (ra : Reg) (rb : Reg) (disp : BitVec 12) : Statement (.priLdwV ra rb disp) := by
  rintro - w ⟨⟩

theorem priLdlV (ra : Reg) (rb : Reg) (disp : BitVec 12) : Statement (.priLdlV ra rb disp) := by
  rintro - w ⟨⟩

theorem priLdwVpte (ra : Reg) (rb : Reg) (disp : BitVec 12) : Statement (.priLdwVpte ra rb disp) := by
  rintro - w ⟨⟩

theorem priLdlVpte (ra : Reg) (rb : Reg) (disp : BitVec 12) : Statement (.priLdlVpte ra rb disp) := by
  rintro - w ⟨⟩

theorem priStwP (ra : Reg) (rb : Reg) (disp : BitVec 12) : Statement (.priStwP ra rb disp) := by
  rintro - w ⟨⟩

theorem priStlP (ra : Reg) (rb : Reg) (disp : BitVec 12) : Statement (.priStlP ra rb disp) := by
  rintro - w ⟨⟩

theorem priStwV (ra : Reg) (rb : Reg) (disp : BitVec 12) : Statement (.priStwV ra rb disp) := by
  rintro - w ⟨⟩

theorem priStlV (ra : Reg) (rb : Reg) (disp : BitVec 12) : Statement (.priStlV ra rb disp) := by
  rintro - w ⟨⟩

theorem fetchd (rb : Reg) (disp : BitVec 16) : Statement (.fetchd rb disp) := by
  rintro - w ⟨⟩

theorem fetchdE (rb : Reg) (disp : BitVec 16) : Statement (.fetchdE rb disp) := by
  rintro - w ⟨⟩

theorem flushd (rb : Reg) (disp : BitVec 16) : Statement (.flushd rb disp) := by
  rintro - w ⟨⟩

theorem evictdl (rb : Reg) (disp : BitVec 16) : Statement (.evictdl rb disp) := by
  rintro - w ⟨⟩

theorem evictdg (rb : Reg) (disp : BitVec 16) : Statement (.evictdg rb disp) := by
  rintro - w ⟨⟩

theorem vinsf (fa : Reg) (fb : Reg) (idx : BitVec 2) (fc : Reg) : Statement (.vinsf fa fb idx fc) := by
  rintro - w ⟨⟩

theorem vinsw (fa : Reg) (fb : Reg) (idx : BitVec 3) (fc : Reg) : Statement (.vinsw fa fb idx fc) := by
  rintro - w ⟨⟩

theorem vcpyf (fb : Reg) (fc : Reg) : Statement (.vcpyf fb fc) := by
  rintro - w ⟨⟩

theorem vextf (fa : Reg) (idx : BitVec 2) (fc : Reg) : Statement (.vextf fa idx fc) := by
  rintro - w ⟨⟩

theorem vextw (fa : Reg) (idx : BitVec 3) (fc : Reg) : Statement (.vextw fa idx fc) := by
  rintro - w ⟨⟩

end Sys2Proof.Laws.RoundTrip
end

