-- ==== Sys2Proof/Safety.lean ====
section
/-! DEFINITION. The terms statements use: when an instruction runs to its own effect, what an access or a fault may
change, and the invariants that every step keeps. -/

namespace Sys2Proof.Machine

/-! ## When an instruction completes -/

/-- The decode stage lets an instruction of unit `p` pass: no address match, and its unit enabled (R595 item 2). -/
def State.passes (s : State) (p : Pipe) : Prop := s.iaMatch = false ∧ s.fen p = false

/-- No data match is enabled (R703, R704). -/
def State.noDataMatch (s : State) : Prop :=
  s.dbox.daMatch.getLsbD 53 = false ∧ s.dbox.daMatch.getLsbD 54 = false ∧ s.dvEn = false

/-- The address is legal, aligned, and reaches physical address `pa`: as it is, or by the one matching DTB entry that
allows the access (R236, R239, R285, R286, R391). -/
def State.reaches (s : State) (q : MemReq) (pa : PAddr) : Prop :=
  (s.signChecked q = false ∨ badSext q.va = false) ∧ q.va.toNat % q.align = 0 ∧
    (if q.bypasses then pa = q.va.setWidth 48 else s.dtbLookup q.pm q.reads q.writes q.va = .pa pa)

/-- The access passes every check of R250 and touches memory or I/O from `pa`; no error is armed and none stands in the data
cache. -/
def State.ready (s : State) (q : MemReq) (pa : PAddr) : Prop :=
  s.noDataMatch ∧ s.armed = none ∧ s.dcErrors = [] ∧ q.classIllegal pa = false ∧ s.unanswered q pa = false ∧
    ∃ p, s.reaches q p ∧ pa = alignDown p q.block

/-- No error stands in the data cache, and no test bit of DC_CTL forces one (R151, R318). -/
def State.cleanCache (s : State) : Prop :=
  s.dcErrors = [] ∧ s.dbox.dcCtl.getLsbD 12 = false ∧ s.dbox.dcCtl.getLsbD 13 = false ∧ s.dbox.dcCtl.getLsbD 14 = false

/-- `n` bytes from `pa` are memory that exists, with no non-cacheable store without effect or with an early one, no merge
window open and no error in the data cache (R213, R225, R230, R318). -/
def State.settled (s : State) (pa : PAddr) (n : Nat) : Prop :=
  isIo pa = false ∧ s.memExists pa n = true ∧ s.ncRecent = [] ∧ s.early = [] ∧ s.mergeWait = none ∧ s.cleanCache

/-! ## Frames -/

/-- `t` is `s` but for what taking an exception may write: pc, lock, EXC_PC, EXC_SUM, IGL_INST, DS_STAT, DVA, IVA, and
the model's own draws and lastExc (R590). -/
def State.sameButRecords (s t : State) : Prop :=
  t = { s with
    pc := t.pc, lock := t.lock, draws := t.draws, lastExc := t.lastExc
    ibox := { s.ibox with excPc := t.ibox.excPc, excSum := t.ibox.excSum, iglInst := t.ibox.iglInst }
    dbox := { s.dbox with dsStat := t.dbox.dsStat, dva := t.dbox.dva }
    ebox := { s.ebox with iva := t.ebox.iva } }

/-- A fault of the instruction at pc was taken at offset `off`: pc, mode and EXC_PC as R590 to R592 say, nothing else changed
but the records (R580). That the lock bits are cleared is decision D24 (log 24). -/
def State.faultsTo (s t : State) (off : BitVec 16) : Prop :=
  t.pc = entryAddr s.ibox.priBase off ∧ t.mode = .hm ∧ t.ibox.excPc = sext53 s.pc ∧
    t.lock = { s.lock with valid := false, flag := false } ∧ s.sameButRecords t

/-- The integer register an instruction writes. -/
def Instr.destR : Instr → Option Reg
  | .call r _ _ | .ret r _ _ | .jmp r _ _ | .br r _ | .bsr r _ | .rtc r _ => some r
  | .rcid r | .rdF r | .rtid r | .priRcsr r _ | .lldw r _ _ | .lldl r _ _ => some r
  | .ldwInc r _ _ | .ldlInc r _ _ | .ldwDec r _ _ | .ldlDec r _ _ | .ldwSet r _ _ | .ldlSet r _ _ => some r
  | .ldwNc r _ _ | .ldlNc r _ _ | .addw _ _ r | .addwL _ _ r | .subw _ _ r | .subwL _ _ r => some r
  | .addl _ _ r | .addlL _ _ r | .subl _ _ r | .sublL _ _ r | .mulw _ _ r | .mulwL _ _ r => some r
  | .mull _ _ r | .mullL _ _ r | .umulh _ _ r | .umulhL _ _ r | .cmpeq _ _ r | .cmpeqL _ _ r => some r
  | .cmplt _ _ r | .cmpltL _ _ r | .cmple _ _ r | .cmpleL _ _ r | .cmpult _ _ r | .cmpultL _ _ r => some r
  | .cmpule _ _ r | .cmpuleL _ _ r | .and _ _ r | .andL _ _ r | .bic _ _ r | .bicL _ _ r => some r
  | .bis _ _ r | .bisL _ _ r | .ornot _ _ r | .ornotL _ _ r | .xor _ _ r | .xorL _ _ r => some r
  | .eqv _ _ r | .eqvL _ _ r | .fimovs _ r | .fimovd _ r | .ldbu r _ _ | .ldhu r _ _ => some r
  | .ldw r _ _ | .ldl r _ _ | .ldlU r _ _ | .ldi r _ _ | .ldih r _ _ | .priLdwP r _ _ => some r
  | .priLdlP r _ _ | .priLdwIncP r _ _ | .priLdlIncP r _ _ | .priLdwDecP r _ _ | .priLdlDecP r _ _ | .priLdwSetP r _ _ => some r
  | .priLdlSetP r _ _ | .priLdwV r _ _ | .priLdlV r _ _ | .priLdwVpte r _ _ | .priLdlVpte r _ _ => some r
  | _ => none

/-- The floating-point or vector register an instruction writes. -/
def Instr.destF : Instr → Option Reg
  | .lddNc r _ _ | .ldwe r _ _ | .ldse r _ _ | .ldde r _ _ | .vlds r _ _ | .vldd r _ _ => some r
  | .faddd _ _ r | .ifmovs _ r | .ifmovd _ r | .rfpcr r | .vaddd _ _ r | .vldwU r _ _ => some r
  | .vldsU r _ _ | .vlddU r _ _ | .vlddNc r _ _ | .flds r _ _ | .fldd r _ _ | .vinsf _ _ _ r => some r
  | .vinsw _ _ _ r | .vcpyf _ r | .vextf _ _ r | .vextw _ _ r => some r
  | _ => none

/-- The instructions that write FPCR (R194, R198). -/
def Instr.writesFpcr : Instr → Bool
  | .faddd _ _ _ | .vaddd _ _ _ | .wfpcr _ | .setfpec0 | .setfpec1 | .setfpec2 | .setfpec3 => true
  | _ => false

/-- SYS_CALL and SYS_CALL/b, which write SR23 (R25). -/
def Instr.isSysCall : Instr → Bool
  | .sysCall _ | .sysCallB _ => true
  | _ => false

/-! ## The decode stage -/

/-- When an instruction raises OPCDEC, with its LOCK_IGL: privileged outside HM, a function code that is not allowed, turned
off by CP_CTL, HALT in HM, out of its slot (R380, R382, R410, R472 to R474, R505). -/
def State.illegal (s : State) : Instr → Option Bool
  | .sysCall fn | .sysCallB fn => s.sysIllegal fn
  | .priRet _ | .priRetB _ | .priRcsr _ _ | .priWcsr _ _ => s.privileged
  | .priLdwP _ _ _ | .priLdlP _ _ _ | .priLdwIncP _ _ _ | .priLdlIncP _ _ _ | .priLdwDecP _ _ _ => s.privileged
  | .priLdlDecP _ _ _ | .priLdwSetP _ _ _ | .priLdlSetP _ _ _ | .priLdwV _ _ _ | .priLdlV _ _ _ => s.privileged
  | .priLdwVpte _ _ _ | .priLdlVpte _ _ _ | .priStwP _ _ _ | .priStlP _ _ _ | .priStwV _ _ _ => s.privileged
  | .priStlV _ _ _ => s.privileged
  | .halt => s.haltIllegal
  | .flushd _ _ | .evictdl _ _ => s.cpIllegal 3
  | .evictdg _ _ => s.cpIllegal 4
  | .lstw _ _ _ | .lstl _ _ _ => s.lockStoreIllegal
  | .rdF r => if r = 31 then none else s.rdFIllegal
  | _ => none

/-- The unit an instruction needs, none for a null one (R358, R404, R440, R530, R561, R570, R606). -/
def Instr.unit : Instr → Pipe
  | .faddd _ _ r | .ifmovs _ r | .ifmovd _ r | .fimovs _ r | .fimovd _ r | .rfpcr r => if r = 31 then .int else .fp
  | .flds r _ _ | .fldd r _ _ | .lddNc r _ _ => if r = 31 then .int else .fp
  | .wfpcr _ | .setfpec0 | .setfpec1 | .setfpec2 | .setfpec3 | .fsts _ _ _ | .fstd _ _ _ | .stdNc _ _ _ => .fp
  | .fbeq _ _ | .fbne _ _ | .fblt _ _ | .fble _ _ | .fbgt _ _ | .fbge _ _ => .fp
  | .vaddd _ _ r | .vinsf _ _ _ r | .vinsw _ _ _ r | .vcpyf _ r | .vextf _ _ r | .vextw _ _ r => if r = 31 then .int else .simd
  | .ldwe r _ _ | .ldse r _ _ | .ldde r _ _ | .vlds r _ _ | .vldd r _ _ => if r = 31 then .int else .simd
  | .vldwU r _ _ | .vldsU r _ _ | .vlddU r _ _ | .vlddNc r _ _ => if r = 31 then .int else .simd
  | .vsts _ _ _ | .vstd _ _ _ | .vstwU _ _ _ | .vstsU _ _ _ | .vstdU _ _ _ | .vstdNc _ _ _ => .simd
  | .vstwUl _ _ _ | .vstsUl _ _ _ | .vstdUl _ _ _ | .vstwUh _ _ _ | .vstsUh _ _ _ | .vstdUh _ _ _ => .simd
  | _ => .int

/-! ## Data accesses -/

/-- A load is null when its destination is register 31 (R423). -/
def unlessNull (r : Reg) (p : Pipe) (q : MemReq) : Option (Pipe × MemReq) := if r = 31 then none else some (p, q)

/-- The target match of a transfer to `t` is not left open: no match, or the PRI_WCSR that set it is not close (R701, R750,
U30; log 58). -/
def State.idaSure (s : State) (t : Word) : Prop := s.idaOpen t = false

/-- A lock store in its place (R505). -/
def State.inPlace (s : State) (q : MemReq) : Option (Pipe × MemReq) :=
  if s.lockStoreIllegal = none then some (.int, q) else none

/-- A privileged access in HM (R380). -/
def State.inHm (s : State) (q : MemReq) : Option (Pipe × MemReq) := if s.mode = .hm then some (.int, q) else none

/-- A privileged load in HM, null when its destination is register 31 (R358, R380). -/
def State.loadInHm (s : State) (r : Reg) (q : MemReq) : Option (Pipe × MemReq) := if r = 31 then none else s.inHm q

/-- The access of a VSTx_UL that stores from `m` (R439, R444). -/
def State.lowReq (s : State) (va : Word) (b align : Nat) (m : Vec) : MemReq :=
  let n := b - blockOffset va b
  (s.vstoreReq va n align .vector).comparing n m

/-- The access of a VSTx_UH that stores from `m` (R439, R444). -/
def State.highReq (s : State) (va : Word) (b align : Nat) (m : Vec) : MemReq :=
  let n := blockOffset va b
  ((s.vstoreReq va n align .vector).inBlock b).comparing n (m >>> (8 * (b - n)))

/-- The data access an instruction makes once it is past decode, and the unit it needs; none for the instructions that
make none (cache control instructions have their own rules, R470). -/
def State.dataReq (s : State) : Instr → Option (Pipe × MemReq)
  | .ldbu ra rb disp => unlessNull ra .int (s.loadReq (s.ea16 rb disp) 1 .scalar)
  | .ldhu ra rb disp => unlessNull ra .int (s.loadReq (s.ea16 rb disp) 2 .scalar)
  | .ldw ra rb disp => unlessNull ra .int (s.loadReq (s.ea16 rb disp) 4 .scalar)
  | .ldl ra rb disp => unlessNull ra .int (s.loadReq (s.ea16 rb disp) 8 .scalar)
  | .ldlU ra rb disp => unlessNull ra .int (if s.plat.ldlUIgnores then (s.loadReq (s.ea16 rb disp) 8 .scalar).unaligned8
    else s.loadReq (s.ea16 rb disp) 8 .scalar)
  | .flds fa rb disp => unlessNull fa .fp (s.loadReq (s.ea16 rb disp) 4 .scalar)
  | .fldd fa rb disp => unlessNull fa .fp (s.loadReq (s.ea16 rb disp) 8 .scalar)
  | .stb ra rb disp => some (.int, s.storeReq (s.ea16 rb disp) 1 .scalar (s.readReg ra))
  | .sth ra rb disp => some (.int, s.storeReq (s.ea16 rb disp) 2 .scalar (s.readReg ra))
  | .stw ra rb disp => some (.int, s.storeReq (s.ea16 rb disp) 4 .scalar (s.readReg ra))
  | .stl ra rb disp => some (.int, s.storeReq (s.ea16 rb disp) 8 .scalar (s.readReg ra))
  | .stlU ra rb disp => some (.int, (s.storeReq (s.ea16 rb disp) 8 .scalar (s.readReg ra)).unaligned8)
  | .fsts fa rb disp => some (.fp, s.storeReq (s.ea16 rb disp) 4 .scalar (fstsWord (s.useF fa .single).1))
  | .fstd fa rb disp => some (.fp, s.storeReq (s.ea16 rb disp) 8 .scalar (s.useF fa .image).1)
  | .ldwNc ra rb disp => unlessNull ra .int (s.loadReq (s.ea12 rb disp) 4 .nonCache)
  | .ldlNc ra rb disp => unlessNull ra .int (s.loadReq (s.ea12 rb disp) 8 .nonCache)
  | .lddNc fa rb disp => unlessNull fa .fp (s.loadReq (s.ea12 rb disp) 8 .nonCache)
  | .stwNc ra rb disp => some (.int, s.storeReq (s.ea12 rb disp) 4 .nonCache (s.readReg ra))
  | .stlNc ra rb disp => some (.int, s.storeReq (s.ea12 rb disp) 8 .nonCache (s.readReg ra))
  | .stdNc fa rb disp => some (.fp, s.storeReq (s.ea12 rb disp) 8 .nonCache (s.useF fa .image).1)
  | .ldwe fa rb disp => unlessNull fa .simd (s.vloadReq (s.ea16 rb disp) 4 4 .vector)
  | .ldse fa rb disp => unlessNull fa .simd (s.vloadReq (s.ea16 rb disp) 4 4 .vector)
  | .ldde fa rb disp => unlessNull fa .simd (s.vloadReq (s.ea16 rb disp) 8 8 .vector)
  | .vlds fa rb disp => unlessNull fa .simd ((s.vloadReq (s.ea16 rb disp) 16 16 .vector).elems 4)
  | .vldd fa rb disp => unlessNull fa .simd ((s.vloadReq (s.ea16 rb disp) 32 32 .vector).elems 8)
  | .vsts _ rb disp => some (.simd, (s.vstoreReq (s.ea16 rb disp) 16 16 .vector).elems 4)
  | .vstd _ rb disp => some (.simd, (s.vstoreReq (s.ea16 rb disp) 32 32 .vector).elems 8)
  | .vldwU fa rb disp => unlessNull fa .simd ((s.vloadReq (s.ea12 rb disp) 32 4 .vector).inBlock 32)
  | .vldsU fa rb disp => unlessNull fa .simd ((s.vloadReq (s.ea12 rb disp) 16 4 .vector).inBlock 16)
  | .vlddU fa rb disp => unlessNull fa .simd ((s.vloadReq (s.ea12 rb disp) 32 8 .vector).inBlock 32)
  | .vstwU _ rb disp => some (.simd, (s.vstoreReq (s.ea12 rb disp) 32 4 .vector).inBlock 32)
  | .vstsU _ rb disp => some (.simd, (s.vstoreReq (s.ea12 rb disp) 16 4 .vector).inBlock 16)
  | .vstdU _ rb disp => some (.simd, (s.vstoreReq (s.ea12 rb disp) 32 8 .vector).inBlock 32)
  | .vstwUl fa rb disp => some (.simd, s.lowReq (s.ea12 rb disp) 32 4 (s.useV fa .integer).1)
  | .vstsUl fa rb disp => some (.simd, s.lowReq (s.ea12 rb disp) 16 4 (fstsVec (s.useV fa .single).1))
  | .vstdUl fa rb disp => some (.simd, s.lowReq (s.ea12 rb disp) 32 8 (s.useV fa .image).1)
  | .vstwUh fa rb disp => some (.simd, s.highReq (s.ea12 rb disp) 32 4 (s.useV fa .integer).1)
  | .vstsUh fa rb disp => some (.simd, s.highReq (s.ea12 rb disp) 16 4 (fstsVec (s.useV fa .single).1))
  | .vstdUh fa rb disp => some (.simd, s.highReq (s.ea12 rb disp) 32 8 (s.useV fa .image).1)
  | .vlddNc fa rb disp => unlessNull fa .simd (s.vloadReq (s.ea12 rb disp) 32 32 .nonCache)
  | .vstdNc _ rb disp => some (.simd, s.vstoreReq (s.ea12 rb disp) 32 32 .nonCache)
  | .ldwInc _ rb disp => some (.int, s.atomicReq (s.ea12 rb disp) 4)
  | .ldwDec _ rb disp => some (.int, s.atomicReq (s.ea12 rb disp) 4)
  | .ldwSet _ rb disp => some (.int, s.atomicReq (s.ea12 rb disp) 4)
  | .ldlInc _ rb disp => some (.int, s.atomicReq (s.ea12 rb disp) 8)
  | .ldlDec _ rb disp => some (.int, s.atomicReq (s.ea12 rb disp) 8)
  | .ldlSet _ rb disp => some (.int, s.atomicReq (s.ea12 rb disp) 8)
  | .lldw _ rb disp => some (.int, s.lockReq (s.ea12 rb disp) 4 false .none)
  | .lldl _ rb disp => some (.int, s.lockReq (s.ea12 rb disp) 8 false .none)
  | .lstw _ rb disp => s.inPlace (s.lockReq (s.ea12 rb disp) 4 true .free)
  | .lstl _ rb disp => s.inPlace (s.lockReq (s.ea12 rb disp) 8 true .free)
  | .priLdwP ra rb disp => s.loadInHm ra (s.loadReq (s.priAddr rb disp 4) 4 .scalar).physical
  | .priLdlP ra rb disp => s.loadInHm ra (s.loadReq (s.priAddr rb disp 8) 8 .scalar).physical
  | .priLdwIncP _ rb disp => s.inHm (s.atomicReq (s.priAddr rb disp 4) 4).physical
  | .priLdlIncP _ rb disp => s.inHm (s.atomicReq (s.priAddr rb disp 8) 8).physical
  | .priLdwDecP _ rb disp => s.inHm (s.atomicReq (s.priAddr rb disp 4) 4).physical
  | .priLdlDecP _ rb disp => s.inHm (s.atomicReq (s.priAddr rb disp 8) 8).physical
  | .priLdwSetP _ rb disp => s.inHm (s.atomicReq (s.priAddr rb disp 4) 4).physical
  | .priLdlSetP _ rb disp => s.inHm (s.atomicReq (s.priAddr rb disp 8) 8).physical
  | .priLdwV ra rb disp => s.loadInHm ra ((s.loadReq (s.priAddr rb disp 4) 4 .scalar).asPm (modeOf s.dtbPm) false)
  | .priLdlV ra rb disp => s.loadInHm ra ((s.loadReq (s.priAddr rb disp 8) 8 .scalar).asPm (modeOf s.dtbPm) false)
  | .priLdwVpte ra rb disp => s.loadInHm ra ((s.loadReq (s.priAddr rb disp 4) 4 .scalar).asPm (modeOf s.dtbPm) true)
  | .priLdlVpte ra rb disp => s.loadInHm ra ((s.loadReq (s.priAddr rb disp 8) 8 .scalar).asPm (modeOf s.dtbPm) true)
  | .priStwP ra rb disp => s.inHm (s.storeReq (s.priAddr rb disp 4) 4 .scalar (s.readReg ra)).physical
  | .priStlP ra rb disp => s.inHm (s.storeReq (s.priAddr rb disp 8) 8 .scalar (s.readReg ra)).physical
  | .priStwV ra rb disp => s.inHm ((s.storeReq (s.priAddr rb disp 4) 4 .scalar (s.readReg ra)).asPm (modeOf s.dtbPm) false)
  | .priStlV ra rb disp => s.inHm ((s.storeReq (s.priAddr rb disp 8) 8 .scalar (s.readReg ra)).asPm (modeOf s.dtbPm) false)
  | _ => none

/-! ## Integer overflow -/

/-- The exact result of an operation (R542 to R547). -/
def IntOp.exact : IntOp → Word → Word → Int
  | .addw, a, b => (a.setWidth 32).toInt + (b.setWidth 32).toInt
  | .subw, a, b => (a.setWidth 32).toInt - (b.setWidth 32).toInt
  | .mulw, a, b => (a.setWidth 32).toInt * (b.setWidth 32).toInt
  | .addl, a, b => a.toInt + b.toInt
  | .subl, a, b => a.toInt - b.toInt
  | .mull, a, b => a.toInt * b.toInt

/-- One more than the largest result an operation can hold (R539). -/
def IntOp.bound : IntOp → Int
  | .addw | .subw | .mulw => 2 ^ 31
  | .addl | .subl | .mull => 2 ^ 63

/-- The exact result fits (R539). -/
def IntOp.fits (op : IntOp) (a b : Word) : Prop := -op.bound ≤ op.exact a b ∧ op.exact a b < op.bound

/-- No integer overflow trap: masked by ICR[FD], not detected by the platform, or no overflow (R539, R622). -/
def State.noIntTrap (s : State) (op : IntOp) (a b : Word) : Prop :=
  s.ebox.icr.getLsbD 0 = true ∨ op ∉ s.plat.intOverflow ∨ op.fits a b

/-! ## Invariants -/

/-- Memory is in canonical form and lies in memory space (R213). -/
def State.memoryOk (s : State) : Prop := s.plat.memSize ≤ 2 ^ 46 ∧ Memory.wf s.mem = true

/-- The translation buffers hold at most 32 and 608 entries, and no two ITB entries overlap (R262, R263, R269, R290). -/
def State.buffersOk (s : State) : Prop :=
  s.itb.length ≤ 32 ∧ s.itb.Pairwise (fun e f => e.overlaps f = false) ∧ s.dtb.length ≤ 608

/-- The fields the spec fixes: FPCR's reserved bits are 0 and SUM is not stored (R191, R194, R195), PRI_BASE keeps bits
[46:16] only (R102), EXC_PC is sign-extended (R88), lock_size is 4 or 8 (R34). -/
def State.fieldsOk (s : State) : Prop :=
  s.fpcr &&& ~~~(fpcrMask ||| 3) = 0 ∧ s.ibox.priBase &&& ~~~(0x00007FFFFFFF0000 : Word) = 0 ∧
    sext53 s.ibox.excPc = s.ibox.excPc ∧ sext53 s.sleepBreak = s.sleepBreak ∧ (s.lock.size = 4 ∨ s.lock.size = 8)

/-- State that instructions change through PRI_WCSR alone: the entry base, the enables, the masks and matches, the
translation buffers and their context, the page-table bases, the timer's and the event counters' selections, TID, ICR, the
cache controls and the SOFTCSRs (R380, R389). -/
def State.privilegedView (s : State) :=
  ((s.ibox.priBase, s.ibox.isCtl, s.ibox.upcr, s.ibox.vpcr, s.ibox.ier, s.ibox.intVec, s.ibox.iaMatch, s.ibox.iaMask),
    (s.itb, s.dtb, s.dbox.dtbPcr, s.dbox.dcCtl, s.dbox.daMatch, s.dbox.dvMatch),
    (s.ebox.tid, s.ebox.icr, s.ebox.idaMatch, s.ebox.idaMask, s.ebox.tcCtl, s.ebox.softcsr, s.sbox.scCtl, s.sbox.cpCtl),
    (s.ibox.ptbr, s.ibox.vptBase, s.ibox.iiEr, s.ibox.timerCtl, s.ibox.timerTh, s.ibox.issueCtl, s.ibox.hserrTh,
      s.ibox.itbTag),
    (s.dbox.dtbTag, s.dbox.dsCtl, s.dbox.daMask, s.dbox.daMatchMode, s.dbox.dvMask, s.sbox.mergeOvtime))

end Sys2Proof.Machine
end

