-- ==== Sys2Proof/Certificates/Slice0/Obligations.lean ====
section
/-! DEFINITION. The statements about the model, for the provers. Each docstring names the rules it formalises. Where a
docstring says so, a clause rests on a choice of the model, named by its log entry. -/

open Sys2Proof Sys2Proof.Machine

/-! ## Encoding -/

/-- Words written from the tables of R353 and R361 to R368 decode to their instructions. -/
def Obligations.DecodeSamples : Prop :=
  decodeTable 0x02000080 = some (.sysCall 0x80) ∧ decodeTable 0x05FA0000 = some (.call 15 26 0) ∧
    decodeTable 0x13FFFFFF = some (.br 31 0x1FFFFF) ∧ decodeTable 0x1BFF0080 = some .halt ∧
    decodeTable 0x183FFE10 = some (.priRcsr 1 0x10) ∧ decodeTable 0x20228FF8 = some (.lstw 1 2 0xFF8) ∧
    decodeTable 0x40220003 = some (.addw 1 2 3) ∧ decodeTable 0x4825E503 = some (.cmpeqL 1 0x2F 3) ∧
    decodeTable 0x43FF075F = some .nop ∧ decodeTable 0x60220023 = some (.faddd 1 2 3) ∧
    decodeTable 0x7022F010 = some (.vstdNc 1 2 0x10) ∧ decodeTable 0x88228000 = some (.ldw 1 2 0x8000) ∧
    decodeTable 0xF8221234 = some (.ldi 1 2 0x1234)

/-- Decoding the word of a well-formed instruction gives it back, whatever its operands (R350 to R368). -/
def Obligations.EncodeThenDecode : Prop := ∀ i : Instr, Sys2Proof.Laws.RoundTrip.Statement i

/-- What the tables decode is well-formed and has a word that decodes to it again, under the same opcode but for FIMOVx,
which stand under both 0x10 and 0x12; the platform's supplement adds only instructions without an encoding, under the words
it lists, PRI_LD forms under opcode 0x25 and PRI_ST forms under 0x2D only (R354, R355, R362, R366, R369, R370). -/
def Obligations.DecodeGivesTableRows : Prop :=
  (∀ (w : InsnWord) (i : Instr), decodeTable w = some i →
    i.wellFormed = true ∧ ∃ w', encode i = some w' ∧ decodeTable w' = some i ∧
      (fieldOp w' = fieldOp w ∨
        (fieldOp w = 0x12 ∧ fieldOp w' = 0x10 ∧ ∃ fa rc, i = .fimovs fa rc ∨ i = .fimovd fa rc))) ∧
  (∀ (sup : List (InsnWord × Instr)) (w : InsnWord) (i : Instr), decode sup w = some i →
    decodeTable w = some i ∨
      ((w, i) ∈ sup ∧ encode i = none ∧
        (∀ ra rb d, i ∈ ([.priLdwP ra rb d, .priLdlP ra rb d, .priLdwIncP ra rb d, .priLdlIncP ra rb d, .priLdwDecP ra rb d,
            .priLdlDecP ra rb d, .priLdwSetP ra rb d, .priLdlSetP ra rb d, .priLdwV ra rb d, .priLdlV ra rb d,
            .priLdwVpte ra rb d, .priLdlVpte ra rb d] : List Instr) → fieldOp w = 0x25) ∧
        (∀ ra rb d, i ∈ ([.priStwP ra rb d, .priStlP ra rb d, .priStwV ra rb d, .priStlV ra rb d] : List Instr) →
          fieldOp w = 0x2D)))

/-! ## The step -/

/-- A step runs the instruction that the fetched word decodes to: with nothing from outside, no interrupt, no detected
error and no store that fetches may not see, the step is `exec` on the state with the word and the other word of its aligned
8 bytes recorded, then the counters and the clock (R350, R505, R691). The word comes from memory where no line of the
instruction cache hits (R270, R275), else from the line (R276), unless the line is evicted first, which is drawn where it
makes a difference (log 26); of two lines that hit, the one filled last (log 66). `codeMem` is memory without the stores that
have taken effect before their place in the program, which no fetch sees (R247, log 27); where there are none it is `mem`. A
word that is no instruction of the tables or of the supplement is refused by name, never OPCDEC, never null (R357, R370; the
refusal is the model's choice, log 33). -/
def Obligations.StepRunsDecoded : Prop :=
  ∀ s : State,
    s.inputs = [] → s.coreState = .running → s.lateErrors = [] → s.recognised = none → s.badFetch = false →
    s.codeHist = [] → s.armedFetch = none → (∀ l ∈ s.icache, l.badTag = false ∧ l.badData = false) →
    let runs : State → InsnWord → Prop := fun u w =>
      (∀ i : Instr, decode s.plat.supplement w = some i →
        step s = match exec i u with
          | .next t => .next (finish i u t)
          | .fault f => .fault f
          | .refused r => .refused r) ∧
      (decode s.plat.supplement w = none → step s = .refused (.unknownWord w))
    let word : Nat → InsnWord := fun a =>
      memRead s.codeMem (a + 3) ++ memRead s.codeMem (a + 2) ++ memRead s.codeMem (a + 1) ++ memRead s.codeMem a
    (s.early = [] → s.codeMem = s.mem) ∧
    (∀ p : PAddr, s.icache.find? (fun l => l.hits s) = none → s.memExists p 4 = true →
      ((s.fetchBypasses = true ∧ p = (clearLow2 s.pc).setWidth 48 &&& 0x7FFFFFFFFFFF) ∨
        (s.fetchBypasses = false ∧ ∃ e, s.itbLookup = .hit e p)) →
      ∃ u : State,
        u = { s with
          lastExc := none, retJump := none, ir := word (loc p), pair := word (loc (p ^^^ 4)), icache := u.icache
          draws := u.draws } ∧
        runs u (word (loc p))) ∧
    (∀ l : ICacheLine, s.icache.find? (fun l => l.hits s) = some l →
      ({ s with lastExc := none, retJump := none } : State).sameWithout l = true ∨ s.free.getLsbD 0 = true →
      ∃ (u : State) (k : Fin 32) (j : Fin 32), k.val = s.pc.toNat / 4 % 32 ∧ j.val = k.val ^^^ 1 ∧
        u = { s with
          lastExc := none, retJump := none, ir := l.words[k], pair := l.words[j], draws := u.draws } ∧
        runs u l.words[k])

/-! ## Registers -/

/-- Integer registers: R31 reads zero and discards writes, a register reads what was last written to it, a write changes
no other register and nothing outside the register files; F31 and V31 the same; a scalar floating-point write keeps all
other registers (R21, R24, R30; the zero registers are general knowledge, log 11). An instruction that works on another
kind of data than the register was written with gets any value (R30; U16, log 59). -/
def Obligations.RegisterFiles : Prop :=
  (∀ (s : State) (r : Reg) (v : Word),
    s.readReg 31 = 0 ∧ s.writeReg 31 v = s ∧
    (r ≠ 31 → (s.writeReg r v).readReg r = v) ∧
    (∀ r', r' ≠ r → (s.writeReg r v).readReg r' = s.readReg r') ∧
    s.writeReg r v = { s with gpr := (s.writeReg r v).gpr, sr := (s.writeReg r v).sr }) ∧
  (∀ (s : State) (r : Reg) (v : Vec) (x : Word) (k : DataKind),
    s.readV 31 = 0 ∧ s.writeV 31 v k = s ∧ s.writeF 31 x k = s ∧
    (r ≠ 31 → (s.writeV r v k).readV r = v ∧ (s.writeF r x k).readF r = x ∧
      (s.writeV r v k).kindOf r = k ∧ (s.writeF r x k).kindOf r = k) ∧
    (∀ r', r' ≠ r → (s.writeV r v k).readV r' = s.readV r' ∧ (s.writeF r x k).readV r' = s.readV r' ∧
      (s.writeV r v k).kindOf r' = s.kindOf r' ∧ (s.writeF r x k).kindOf r' = s.kindOf r') ∧
    s.writeV r v k = { s with vr := (s.writeV r v k).vr, kinds := (s.writeV r v k).kinds } ∧
    s.writeF r x k =
      { s with vr := (s.writeF r x k).vr, kinds := (s.writeF r x k).kinds, draws := (s.writeF r x k).draws }) ∧
  (∀ (s : State) (r : Reg) (u : DataKind),
    let k := s.kindOf r
    let fits := k = .unwritten ∨ (k = .image ∧ u ≠ .single) ∨ (k = .single ∧ u = .single) ∨
      (k = .double ∧ (u = .double ∨ u = .image)) ∨ (k = .integer ∧ (u = .integer ∨ u = .image))
    (fits → s.useV r u = (s.readV r, s) ∧ s.useF r u = (s.readF r, s)) ∧
    (¬fits → s.useV r u = (Config.freeBits s.draws, { s with draws := s.draws + 1 }) ∧
      s.useF r u = ((Config.freeBits s.draws).extractLsb' 0 64, { s with draws := s.draws + 1 })))

/-- The system registers stand behind ten register numbers in HM with IS_CTL[SRE] = 1, and nowhere else (R24). -/
def Obligations.SystemRegisterBank : Prop :=
  ∀ (s : State) (v : Word),
    (∀ p ∈ ([(1, 0), (2, 1), (4, 2), (5, 3), (6, 4), (7, 5), (20, 6), (21, 7), (22, 8), (23, 9)] : List (Reg × Fin 10)),
      (s.mode = .hm ∧ s.ibox.isCtl.getLsbD 0 = true →
        s.readReg p.1 = s.sr[p.2] ∧ s.writeReg p.1 v = { s with sr := s.sr.set p.2 v }) ∧
      (¬(s.mode = .hm ∧ s.ibox.isCtl.getLsbD 0 = true) →
        s.readReg p.1 = s.gpr[p.1.toNat]'p.1.isLt ∧
          s.writeReg p.1 v = { s with gpr := s.gpr.set p.1.toNat v p.1.isLt })) ∧
    (∀ r : Reg, r ∉ ([1, 2, 4, 5, 6, 7, 20, 21, 22, 23, 31] : List Reg) →
      s.readReg r = s.gpr[r.toNat]'r.isLt ∧ s.writeReg r v = { s with gpr := s.gpr.set r.toNat v r.isLt })

/-! ## Integer instructions -/

/-- The operations that cannot overflow, in both forms, and the address loads: the result in the destination, the pc on
the next instruction, nothing else (R538, R540, R541, R548 to R559). -/
def Obligations.OperateResults : Prop :=
  ∀ (s : State) (ra rb rc : Reg) (lit : BitVec 8) (disp : BitVec 16), s.iaMatch = false → rc ≠ 31 →
    (∀ p ∈ ([
      (Instr.umulh ra rb rc, Instr.umulhL ra lit rc,
        fun a b => (a.setWidth 128 * b.setWidth 128 : BitVec 128).extractLsb' 64 64),
      (.cmpeq ra rb rc, .cmpeqL ra lit rc, fun a b => if a = b then 1 else 0),
      (.cmplt ra rb rc, .cmpltL ra lit rc, fun a b => if a.toInt < b.toInt then 1 else 0),
      (.cmple ra rb rc, .cmpleL ra lit rc, fun a b => if a.toInt ≤ b.toInt then 1 else 0),
      (.cmpult ra rb rc, .cmpultL ra lit rc, fun a b => if a.toNat < b.toNat then 1 else 0),
      (.cmpule ra rb rc, .cmpuleL ra lit rc, fun a b => if a.toNat ≤ b.toNat then 1 else 0),
      (.and ra rb rc, .andL ra lit rc, fun a b => a &&& b),
      (.bic ra rb rc, .bicL ra lit rc, fun a b => a &&& ~~~b),
      (.bis ra rb rc, .bisL ra lit rc, fun a b => a ||| b),
      (.ornot ra rb rc, .ornotL ra lit rc, fun a b => a ||| ~~~b),
      (.xor ra rb rc, .xorL ra lit rc, fun a b => a ^^^ b),
      (.eqv ra rb rc, .eqvL ra lit rc, fun a b => a ^^^ ~~~b)] : List (Instr × Instr × (Word → Word → Word))),
      exec p.1 s = .next (s.writeReg rc (p.2.2 (s.readReg ra) (s.readReg rb))).advance ∧
        exec p.2.1 s = .next (s.writeReg rc (p.2.2 (s.readReg ra) (lit.setWidth 64))).advance) ∧
    exec (.ldi rc rb disp) s = .next (s.writeReg rc (s.readReg rb + disp.signExtend 64)).advance ∧
    exec (.ldih rc rb disp) s = .next (s.writeReg rc (s.readReg rb + (disp.signExtend 64 <<< 16))).advance

/-- The six operations that can overflow, where no trap is due: the result wrapped to its width (R539, R542 to R547).
Which of them the platform lets trap is a parameter (log 55). -/
def Obligations.ArithmeticResults : Prop :=
  ∀ (s : State) (ra rb rc : Reg) (lit : BitVec 8), s.iaMatch = false → rc ≠ 31 →
    ∀ p ∈ ([
      (IntOp.addw, Instr.addw ra rb rc, Instr.addwL ra lit rc, fun a b => ((a + b).extractLsb' 0 32).signExtend 64),
      (.subw, .subw ra rb rc, .subwL ra lit rc, fun a b => ((a - b).extractLsb' 0 32).signExtend 64),
      (.mulw, .mulw ra rb rc, .mulwL ra lit rc,
        fun a b => ((a.extractLsb' 0 32 : BitVec 32) * b.extractLsb' 0 32).signExtend 64),
      (.addl, .addl ra rb rc, .addlL ra lit rc, fun a b => a + b),
      (.subl, .subl ra rb rc, .sublL ra lit rc, fun a b => a - b),
      (.mull, .mull ra rb rc, .mullL ra lit rc, fun a b => a * b)] : List (IntOp × Instr × Instr × (Word → Word → Word))),
      (s.noIntTrap p.1 (s.readReg ra) (s.readReg rb) →
        exec p.2.1 s = .next (s.writeReg rc (p.2.2.2 (s.readReg ra) (s.readReg rb))).advance) ∧
      (s.noIntTrap p.1 (s.readReg ra) (lit.setWidth 64) →
        exec p.2.2.1 s = .next (s.writeReg rc (p.2.2.2 (s.readReg ra) (lit.setWidth 64))).advance)

/-- An overflow that the platform detects traps with ICR[FD] = 0: the wrapped result is written all the same, EXC_SUM
holds OVI, INT and the destination and nothing else, EXC_PC the instruction (R539, R621, R622; which operations detect it
is log 55, that the other bits of EXC_SUM are cleared decision D9, log 19, and the lock bits decision D24, log 24). -/
def Obligations.IntegerOverflowTrap : Prop :=
  ∀ (s : State) (ra rb rc : Reg) (lit : BitVec 8), s.iaMatch = false → rc ≠ 31 → s.ebox.icr.getLsbD 0 = false →
    ∀ p ∈ ([
      (IntOp.addw, Instr.addw ra rb rc, Instr.addwL ra lit rc, fun a b => ((a + b).extractLsb' 0 32).signExtend 64),
      (.subw, .subw ra rb rc, .subwL ra lit rc, fun a b => ((a - b).extractLsb' 0 32).signExtend 64),
      (.mulw, .mulw ra rb rc, .mulwL ra lit rc,
        fun a b => ((a.extractLsb' 0 32 : BitVec 32) * b.extractLsb' 0 32).signExtend 64),
      (.addl, .addl ra rb rc, .addlL ra lit rc, fun a b => a + b),
      (.subl, .subl ra rb rc, .sublL ra lit rc, fun a b => a - b),
      (.mull, .mull ra rb rc, .mullL ra lit rc, fun a b => a * b)] : List (IntOp × Instr × Instr × (Word → Word → Word))),
      let trapped : Word → Result := fun b => .next
        { s.writeReg rc (p.2.2.2 (s.readReg ra) b) with
          pc := entryAddr s.ibox.priBase 0xB80
          ibox := { s.ibox with excPc := sext53 s.pc, excSum := (0xC0 : Word) ||| (rc.setWidth 64 <<< 8) }
          lock := { s.lock with valid := false, flag := false }
          lastExc := some .arith }
      p.1 ∈ s.plat.intOverflow →
        (¬p.1.fits (s.readReg ra) (s.readReg rb) → exec p.2.1 s = trapped (s.readReg rb)) ∧
        (¬p.1.fits (s.readReg ra) (lit.setWidth 64) → exec p.2.2.1 s = trapped (lit.setWidth 64))

/-- A null instruction only advances the pc: NOP, an operation or a load whose only destination is register 31, RD_F
with R31, and in HM a PRI_LD to R31 (R358, R380, R406, R423, R508; which instructions are null is log 14). No
floating-point enable is asked. -/
def Obligations.NullInstructions : Prop :=
  ∀ (s : State) (ra rb : Reg) (lit : BitVec 8) (d : BitVec 16) (d12 : BitVec 12) (x2 : BitVec 2) (x3 : BitVec 3),
    s.iaMatch = false →
    (s.mode = .hm → ∀ i ∈ ([.priLdwP 31 rb d12, .priLdlP 31 rb d12, .priLdwV 31 rb d12, .priLdlV 31 rb d12,
      .priLdwVpte 31 rb d12, .priLdlVpte 31 rb d12] : List Instr), exec i s = .next { s with pc := s.pc + 4 }) ∧
    ∀ i ∈ ([.nop, .addw ra rb 31, .addwL ra lit 31, .subw ra rb 31, .subwL ra lit 31, .addl ra rb 31, .addlL ra lit 31,
      .subl ra rb 31, .sublL ra lit 31, .mulw ra rb 31, .mulwL ra lit 31, .mull ra rb 31, .mullL ra lit 31,
      .umulh ra rb 31, .umulhL ra lit 31, .cmpeq ra rb 31, .cmpeqL ra lit 31, .cmplt ra rb 31, .cmpltL ra lit 31,
      .cmple ra rb 31, .cmpleL ra lit 31, .cmpult ra rb 31, .cmpultL ra lit 31, .cmpule ra rb 31, .cmpuleL ra lit 31,
      .and ra rb 31, .andL ra lit 31, .bic ra rb 31, .bicL ra lit 31, .bis ra rb 31, .bisL ra lit 31, .ornot ra rb 31,
      .ornotL ra lit 31, .xor ra rb 31, .xorL ra lit 31, .eqv ra rb 31, .eqvL ra lit 31, .ldi 31 rb d, .ldih 31 rb d,
      .faddd ra rb 31, .vaddd ra rb 31, .ifmovs ra 31, .ifmovd ra 31, .fimovs ra 31, .fimovd ra 31, .rfpcr 31,
      .vinsf ra rb x2 31, .vinsw ra rb x3 31, .vcpyf rb 31, .vextf ra x2 31, .vextw ra x3 31, .ldbu 31 rb d,
      .ldhu 31 rb d, .ldw 31 rb d, .ldl 31 rb d, .ldlU 31 rb d, .flds 31 rb d, .fldd 31 rb d, .ldwNc 31 rb d12,
      .ldlNc 31 rb d12, .lddNc 31 rb d12, .ldwe 31 rb d, .ldse 31 rb d, .ldde 31 rb d, .vlds 31 rb d, .vldd 31 rb d,
      .vldwU 31 rb d12, .vldsU 31 rb d12, .vlddU 31 rb d12, .vlddNc 31 rb d12, .rdF 31] : List Instr),
      exec i s = .next { s with pc := s.pc + 4 }

/-! ## Control transfer -/

/-- CALL, RET and JMP to a target that passes its checks, and BR and BSR: the link, the target with the mode kept,
lock_valid cleared (R521 to R523, R526 to R529, R531, R535, R770). -/
def Obligations.JumpsAndLinks : Prop :=
  ∀ (s : State) (ra rb : Reg) (hint : BitVec 16) (disp : BitVec 21), s.iaMatch = false →
    (badSext (s.readReg rb) = false → s.idaMatch (s.readReg rb) = false →
      ∀ i ∈ ([.call ra rb hint, .ret ra rb hint, .jmp ra rb hint] : List Instr),
        exec i s = .next
          { s.writeReg ra ((s.pc &&& ~~~(3 : Word)) + 4) with
            pc := (s.readReg rb &&& ~~~(3 : Word)) ||| (s.pc &&& 3)
            lock := { s.lock with valid := false } }) ∧
    (s.idaMatch ((s.pc &&& ~~~(3 : Word)) + (4 : Word) + (disp.signExtend 64 <<< 2)) = false →
      ∀ i ∈ ([.br ra disp, .bsr ra disp] : List Instr),
        exec i s = .next
          { s.writeReg ra ((s.pc &&& ~~~(3 : Word)) + 4) with
            pc := (((s.pc &&& ~~~(3 : Word)) + (4 : Word) + (disp.signExtend 64 <<< 2)) &&& ~~~(3 : Word)) ||| (s.pc &&& 3)
            lock := { s.lock with valid := false } })

/-- The integer conditional branches, taken and not taken (R521, R524, R525, R535, R771 to R776). -/
def Obligations.ConditionalBranches : Prop :=
  ∀ (s : State) (ra : Reg) (disp : BitVec 21), s.iaMatch = false →
    ∀ p ∈ ([(Instr.beq ra disp, s.readReg ra = 0), (.bne ra disp, s.readReg ra ≠ 0),
      (.blt ra disp, (s.readReg ra).toInt < 0), (.ble ra disp, (s.readReg ra).toInt ≤ 0),
      (.bgt ra disp, 0 < (s.readReg ra).toInt), (.bge ra disp, 0 ≤ (s.readReg ra).toInt),
      (.blbc ra disp, (s.readReg ra).toNat % 2 = 0), (.blbs ra disp, (s.readReg ra).toNat % 2 = 1)] : List (Instr × Prop)),
      (p.2 → s.idaMatch ((s.pc &&& ~~~(3 : Word)) + (4 : Word) + (disp.signExtend 64 <<< 2)) = false →
        exec p.1 s = .next
          { s with
            pc := (((s.pc &&& ~~~(3 : Word)) + (4 : Word) + (disp.signExtend 64 <<< 2)) &&& ~~~(3 : Word)) ||| (s.pc &&& 3)
            lock := { s.lock with valid := false } }) ∧
      (¬p.2 → exec p.1 s = .next { s with pc := s.pc + 4, lock := { s.lock with valid := false } })

/-- The floating-point conditional branches: both zeros count as zero, the sign bit decides the rest, no target match
(R520, R521, R530, R535, R777 to R782). A register whose data are no double gives any value (U16, log 59). -/
def Obligations.FloatBranches : Prop :=
  ∀ (s : State) (fa : Reg) (disp : BitVec 21), s.passes .fp →
    let x := s.useF fa .double
    let z := x.1.extractLsb' 0 63 = (0 : BitVec 63)
    let neg := x.1.getLsbD 63 = true
    ∀ p ∈ ([(Instr.fbeq fa disp, z), (.fbne fa disp, ¬z), (.fblt fa disp, neg ∧ ¬z), (.fble fa disp, neg ∨ z),
      (.fbgt fa disp, ¬neg ∧ ¬z), (.fbge fa disp, ¬neg ∨ z)] : List (Instr × Prop)),
      (p.2 → exec p.1 s = .next
          { x.2 with
            pc := (((s.pc &&& ~~~(3 : Word)) + (4 : Word) + (disp.signExtend 64 <<< 2)) &&& ~~~(3 : Word)) ||| (s.pc &&& 3)
            lock := { s.lock with valid := false } }) ∧
      (¬p.2 → exec p.1 s = .next { x.2 with pc := s.pc + 4, lock := { s.lock with valid := false } })

/-- A jump to a target that is not sign-extended faults to IACV with BAD_IVA, whatever the target match says; a transfer
whose target matches IDA_MATCH faults to IACV with IDA_MATCH; the link is not written (R531, R618, R619). Close to a
PRI_WCSR that set the match, whether it is reported is open: the fault or the transfer (R750; U30, log 58). The other bits of
EXC_SUM are cleared (decision D9, log 19), DS_STAT stays (decision D27, log 20), the lock bits are cleared (decision D24,
log 24). -/
def Obligations.TransferFaults : Prop :=
  ∀ (s : State) (ra rb : Reg) (hint : BitVec 16) (disp : BitVec 21), s.iaMatch = false →
    let target := (s.pc &&& ~~~(3 : Word)) + (4 : Word) + (disp.signExtend 64 <<< 2)
    let bad : Result → Word → Word → Prop := fun r x bit =>
      ∃ t, r = .next t ∧ s.faultsTo t 0xD00 ∧ t.dbox = s.dbox ∧ t.ebox.iva = x ∧
        t.ibox.excSum = bit ||| (s.irRa.setWidth 64 <<< 8)
    let open' : Result → Word → Prop := fun r x =>
      bad r x 0x400000000 ∨ ∃ t, r = .next t ∧ t.pc = (x &&& ~~~(3 : Word)) ||| (s.pc &&& 3) ∧ t.mem = s.mem ∧ t.vr = s.vr
    let matched : Result → Word → Prop := fun r x =>
      s.idaMatch x = true → (s.idaSure x → bad r x 0x400000000) ∧ open' r x
    (∀ i ∈ ([.call ra rb hint, .ret ra rb hint, .jmp ra rb hint] : List Instr),
      (badSext (s.readReg rb) = true → bad (exec i s) (s.readReg rb) 0x2000) ∧
      (badSext (s.readReg rb) = false → matched (exec i s) (s.readReg rb))) ∧
    (∀ i ∈ ([.br ra disp, .bsr ra disp] : List Instr), matched (exec i s) target) ∧
    (∀ p ∈ ([(Instr.beq ra disp, s.readReg ra = 0), (.bne ra disp, s.readReg ra ≠ 0),
      (.blt ra disp, (s.readReg ra).toInt < 0), (.ble ra disp, (s.readReg ra).toInt ≤ 0),
      (.bgt ra disp, 0 < (s.readReg ra).toInt), (.bge ra disp, 0 ≤ (s.readReg ra).toInt),
      (.blbc ra disp, (s.readReg ra).toNat % 2 = 0), (.blbs ra disp, (s.readReg ra).toNat % 2 = 1)] : List (Instr × Prop)),
      p.2 → matched (exec p.1 s) target)

/-! ## SYS_CALL, privileged instructions, CSRs -/

/-- The entry of a SYS_CALL function code (R383). -/
def Obligations.SysCallEntryAddress : Prop :=
  ∀ (priBase : Word) (fn : BitVec 25), fn.extractLsb' 6 2 ≠ (3 : BitVec 2) →
    let e := sysEntry priBase fn
    e.extractLsb' 48 16 = (0 : BitVec 16) ∧ e.extractLsb' 16 32 = (priBase.extractLsb' 16 32 : BitVec 32) ∧
      e.getLsbD 15 = false ∧
      (fn.extractLsb' 6 2 = (2 : BitVec 2) → e.extractLsb' 13 2 = (3 : BitVec 2)) ∧
      (fn.extractLsb' 6 2 = (0 : BitVec 2) → e.extractLsb' 13 2 = (2 : BitVec 2)) ∧
      (fn.extractLsb' 6 2 = (1 : BitVec 2) → e.extractLsb' 13 2 = (1 : BitVec 2)) ∧
      e.extractLsb' 7 6 = (fn.extractLsb' 0 6 : BitVec 6) ∧ e.extractLsb' 2 5 = (0 : BitVec 5) ∧
      e.extractLsb' 0 2 = (0 : BitVec 2)

/-- SYS_CALL and SYS_CALL/b: from UM, KM and VM with an allowed code into HM, SR23 holding the return address and the
mode; null in HM; OPCDEC for a code with fn[24:8] not zero or not allowed to the mode (R382, R384, R385; the lock bits
are cleared by decision D24, log 24). Both forms do the same and write no CSR; only where the platform parameter of log 65,
false by default, asks for what R699 says in passing does SYS_CALL/b write EXC_PC. -/
def Obligations.SysCallEffect : Prop :=
  ∀ (s : State) (fn : BitVec 25),
    let user := 0x80 ≤ fn.toNat % 256 ∧ fn.toNat % 256 ≤ 0xBF
    let kern := fn.toNat % 256 ≤ 0x3F
    let virt := 0x40 ≤ fn.toNat % 256 ∧ fn.toNat % 256 ≤ 0x7F
    let allowed := (s.mode = .um ∧ user) ∨ (s.mode = .km ∧ (user ∨ kern)) ∨ (s.mode = .vm ∧ (user ∨ kern ∨ virt))
    let entered : State :=
      { s with
        sr := s.sr.set 9 (((s.pc + 4) &&& ~~~(3 : Word)) ||| (s.pc &&& 3))
        lock := { s.lock with valid := false, flag := false }
        pc := sysEntry s.ibox.priBase fn }
    (s.iaMatch = false → fn.toNat < 256 → allowed →
      exec (.sysCall fn) s = .next entered ∧
      (s.plat.sysCallBRecordsPc = false → exec (.sysCallB fn) s = .next entered) ∧
      (s.plat.sysCallBRecordsPc = true →
        exec (.sysCallB fn) s = .next { entered with ibox := { s.ibox with excPc := sext53 s.pc } })) ∧
    ∀ i ∈ ([.sysCall fn, .sysCallB fn] : List Instr),
      (s.iaMatch = false → fn.toNat < 256 → s.mode = .hm → exec i s = .next { s with pc := s.pc + 4 }) ∧
      (256 ≤ fn.toNat ∨ (s.mode ≠ .hm ∧ ¬allowed) →
        ∃ t, exec i s = .next t ∧ s.faultsTo t 0xD80 ∧ t.dbox = s.dbox ∧ t.ebox = s.ebox ∧
          t.ibox.iglInst = s.ir.setWidth 64)

/-- A privileged instruction outside HM raises OPCDEC before anything else it could do, with its word in IGL_INST (R380,
R590, R595, R620; that it comes before the address match is decision D3, log 18, and that the lock bits are cleared decision
D24, log 24). -/
def Obligations.PrivilegedOutsideHm : Prop :=
  ∀ (s : State) (ra rb : Reg) (idx : BitVec 8) (d : BitVec 12), s.mode ≠ .hm →
    ∀ i ∈ ([.priRcsr ra idx, .priWcsr ra idx, .priRet ra, .priRetB ra, .priLdwP ra rb d, .priLdlP ra rb d,
      .priLdwIncP ra rb d, .priLdlIncP ra rb d, .priLdwDecP ra rb d, .priLdlDecP ra rb d, .priLdwSetP ra rb d,
      .priLdlSetP ra rb d, .priLdwV ra rb d, .priLdlV ra rb d, .priLdwVpte ra rb d, .priLdlVpte ra rb d,
      .priStwP ra rb d, .priStlP ra rb d, .priStwV ra rb d, .priStlV ra rb d] : List Instr),
      ∃ t, exec i s = .next t ∧ s.faultsTo t 0xD80 ∧ t.dbox = s.dbox ∧ t.ebox = s.ebox ∧
        t.ibox.iglInst = s.ir.setWidth 64

/-- PRI_RET and PRI_RET/b in HM: the pc, and with it the mode, from the register; the lock bits are cleared; the /b form
is a fetch barrier as well (R386, R387; the operand is general knowledge, the lock bits decision D24, log 24). `retJump` is
the model's own: what a bad target's fault at its fetch records (R618, decision D18, log 22). That a target which matches
IDA_MATCH is returned to all the same is the model's choice: R386 says that this match is not stated (log 70, DESIGN CHOICE,
unsafe). -/
def Obligations.PriRetReturns : Prop :=
  ∀ (s : State) (ra : Reg), s.mode = .hm → s.iaMatch = false →
    exec (.priRet ra) s = .next
      { s with
        pc := s.readReg ra, lock := { s.lock with valid := false, flag := false }, retJump := some (s.pc, ra) } ∧
    exec (.priRetB ra) s = .next
      { s with
        pc := s.readReg ra
        lock := { s.lock with valid := false, flag := false }
        retJump := some (s.pc, ra)
        codeHist := s.codeHist.filter fun o => o.stage != .flushed }

/-- PRI_RCSR in HM always completes: it changes only its register, the pc and the model's count of free values, and
reads the register's content where it is a function of the state (R38, R388, D8). What the read-only registers read: EXC_PC,
EXC_SUM, IGL_INST, DVA and IVA what hardware recorded, II0 and II1 the requests that arrived, whatever II_ER holds, II_MAIL
the count of messages in six bits, CP_CTL what the chip was configured with, IVA_FORM and DVA_FORM the address of the
page-table entry (R88, R89, R94, R96, R99, R120, R157, R158, R169; INT_STAT is in CsrWriteThenRead; that EXC_SUM reads so
after the first instruction group is log 64). -/
def Obligations.CsrReads : Prop :=
  ∀ (s : State) (ra : Reg) (idx : BitVec 8), s.mode = .hm → s.iaMatch = false →
    (∀ v, s.csrValue (csrOf idx) = some v → exec (.priRcsr ra idx) s = .next (s.writeReg ra v).advance) ∧
    (s.csrValue (csrOf idx) = none →
      ∃ v, exec (.priRcsr ra idx) s = .next ({ s with draws := s.draws + 1 }.writeReg ra v).advance) ∧
    (∀ p ∈ ([(0x0D, s.ibox.excSum), (0x0E, s.ibox.excPc), (0x28, s.ibox.iglInst), (0x4E, s.dbox.dva), (0xC0, s.ebox.iva),
        (0x0A, s.ibox.ii0.setWidth 64), (0x1C, s.ibox.ii1.setWidth 64), (0x1D, s.ibox.iiMail.setWidth 64),
        (0x83, s.sbox.cpCtl)] : List (BitVec 8 × Word)),
      exec (.priRcsr ra p.1) s = .next (s.writeReg ra p.2).advance) ∧
    (∀ p ∈ ([(0x07, s.ibox.vptBase, s.ibox.excPc), (0x4F, s.dbox.dsCtl, s.dbox.dva)] : List (BitVec 8 × Word × Word)),
      ∃ v : Word, exec (.priRcsr ra p.1) s = .next (s.writeReg ra v).advance ∧
        (∀ k, 53 ≤ k → k < 64 → v.getLsbD k = p.2.1.getLsbD 52) ∧
        (∀ k, 49 ≤ k → k < 53 → v.getLsbD k = p.2.1.getLsbD k) ∧
        (∀ k, 43 ≤ k → k < 49 → v.getLsbD k = p.2.2.getLsbD 52) ∧
        (∀ k, 3 ≤ k → k < 43 → v.getLsbD k = p.2.2.getLsbD (k + 10)) ∧ (∀ k, k < 3 → v.getLsbD k = false))

/-- PRI_WCSR in HM completes on every index and every datum but a way enable of DC_CTL or SC_CTL that is neither all
ones nor one-hot, which the spec calls UNPREDICTABLE and the model refuses (R389, R151, R165; log 32); general, vector
and floating-point registers, memory and the lock state stay. The write is the one that CsrWriteThenRead speaks of. -/
def Obligations.CsrWritesComplete : Prop :=
  ∀ (s : State) (ra : Reg) (idx : BitVec 8), s.mode = .hm → s.iaMatch = false →
    exec (.priWcsr ra idx) s = s.advance.csrWrite (csrOf idx) (s.readReg ra) ∧
    ((idx = 0x4A ∧ (s.readReg ra).toNat % 16 ∉ [1, 2, 4, 8, 15]) ∨
        (idx = 0x80 ∧ (s.readReg ra).toNat % 256 ∉ [1, 2, 4, 8, 16, 32, 64, 128, 255]) →
      exec (.priWcsr ra idx) s = .refused .wayEnable) ∧
    (¬((idx = 0x4A ∧ (s.readReg ra).toNat % 16 ∉ [1, 2, 4, 8, 15]) ∨
        (idx = 0x80 ∧ (s.readReg ra).toNat % 256 ∉ [1, 2, 4, 8, 16, 32, 64, 128, 255])) →
      ∃ t, exec (.priWcsr ra idx) s = .next t ∧ t.pc = s.pc + 4 ∧ t.gpr = s.gpr ∧ t.sr = s.sr ∧ t.vr = s.vr ∧
        t.fpcr = s.fpcr ∧ t.mem = s.mem ∧ t.lock = s.lock)

/-- What a register reads after a write: the written bits of its RW fields, zero in reserved bits (R37, R389 and the
rule of each register); IS_CTL keeps its fixed bits (R103), VPT_BASE reads sign-extended (R108), CID keeps the core's number
(R180); UPCR by its index bits (R109); INT_STAT reads pending and enabled requests, INT_CLR clears, IER enables (R91, R93,
R97, R652), II_CLR clears (R98); the write-one-to-clear registers (R106, R153, R167), DS_STAT cleared by every write (R149),
HSERR_CNT by its two bits (R118); INT_REQ while no request waits (R168; else it is open, U7, log 37). ISSUE_CTL stores its
fields and keeps its two fixed bits, and its read shows each half in some rotation (R105; U20, log 38); IC_FLUSH empties the
instruction cache, whatever is written, and changes nothing else but the model's record of old code bytes (R107, R282; log
26). That a write of a
read-only register does nothing is the spec's own decision D8 (R38, log 34), and that DS_CTL (0x49), which its field table
types write-only, reads the bits last written decision D10 (R150, log 35, DEDUCED, unsafe). -/
def Obligations.CsrWriteThenRead : Prop :=
  ∀ (s t : State) (d : Word),
    (∀ p ∈ ([(0x08, 0x0000FFFFFFFFFFFF), (0x09, 7), (0x10, 0x00007FFFFFFF0000), (0x19, 0x00003FFFFFFFFFFF),
        (0x1A, 0xFFFFFFFFFFFFFFFF), (0x1B, 0x7FFFFFFFFFFFFFFF), (0x1F, 0x0000FFFFFFFFFFFF), (0x24, 0xF3FFFFFFFFFFFFFF),
        (0x25, 0xFFFFFFFFFFFFFFFF), (0x27, 0xFFF), (0x29, 1), (0x3C, 1), (0x2A, 1), (0x2B, 0xFFFFFFFFFFFFFFFF),
        (0x47, 0xFFC0000000000003), (0x49, 0x001E000000000000), (0x4A, 0xFFFE0000003FF7BF), (0x4C, 0x00FFFFFFFFFFFFFF),
        (0x4D, 0x001FFFFFFFFFFFFF), (0x50, 0x001FFFFFFFFFFFFF), (0x52, 0xFFFFFFFFFFFFFFFF), (0x53, 0xFFFFFFFFFFFFFFFF),
        (0x80, 0x1FFFFF), (0x84, 0xFFFF), (0xC1, 0xFFFFFFFFFFFFFFFF), (0xC2, 1), (0xC3, 1), (0xC5, 0x003FFFFFFFFFFFFF),
        (0xC6, 0x001FFFFFFFFFFFFF), (0xC7, 0xFFFFFFFFFFFFFFFF)] : List (BitVec 8 × Word)),
      s.csrWrite (csrOf p.1) d = .next t → t.csrValue (csrOf p.1) = some (d &&& p.2)) ∧
    (∀ n : Nat, 0xD0 ≤ n → n < 0x100 → s.csrWrite (csrOf (BitVec.ofNat 8 n)) d = .next t →
      t.csrValue (csrOf (BitVec.ofNat 8 n)) = some d) ∧
    (∀ p ∈ ([(0x20, 0), (0x21, 7), (0x22, 0x00007F8000000000), (0x23, 0x00007F8000000007)] : List (BitVec 8 × Word)),
      s.csrWrite (csrOf p.1) d = .next t → t.ibox.upcr = (s.ibox.upcr &&& ~~~p.2) ||| (d &&& p.2)) ∧
    (∀ p ∈ ([0x0D, 0x0E, 0x0A, 0x1C, 0x1D, 0x28, 0x30, 0x31, 0x32, 0x33, 0x4E, 0x4F, 0x07, 0x83, 0xC0] : List (BitVec 8)),
      s.csrWrite (csrOf p) d = .next t → t = s) ∧
    (∀ k : Fin 4,
      s.csrValue (.intStat k) = some ((s.ibox.pending &&& s.ibox.ier).extractLsb' (64 * k.val) 64) ∧
      (s.csrWrite (.intClr k) d = .next t → ∀ n : Nat,
        t.ibox.pending.getLsbD n =
          (s.ibox.pending.getLsbD n && !(decide (64 * k.val ≤ n) && decide (n < 64 * k.val + 64) && d.getLsbD (n - 64 * k.val)))) ∧
      (s.csrWrite (.ier k) d = .next t → ∀ n : Nat, n < 256 →
        t.ibox.ier.getLsbD n =
          (if 64 * k.val ≤ n ∧ n < 64 * k.val + 64 then d.getLsbD (n - 64 * k.val) else s.ibox.ier.getLsbD n))) ∧
    (s.csrWrite (csrOf 0x14) d = .next t → t.ibox.isStat = s.ibox.isStat &&& ~~~d) ∧
    (s.csrWrite (csrOf 0x4B) d = .next t → t.dbox.dcStat = s.dbox.dcStat &&& ~~~d) ∧
    (s.csrWrite (csrOf 0x81) d = .next t → t.sbox.scStat = s.sbox.scStat &&& ~~~d) ∧
    (s.csrWrite (csrOf 0x11) d = .next t →
      t.csrValue (csrOf 0x11) = some ((s.ibox.isCtl &&& ~~~(0x1FC07 : Word)) ||| (d &&& 0x1FC07))) ∧
    (s.csrWrite (csrOf 0x17) d = .next t → ∃ v : Word, t.csrValue (csrOf 0x17) = some v ∧
      ∀ k, k < 64 → v.getLsbD k = if k < 49 then false else if k < 53 then d.getLsbD k else d.getLsbD 52) ∧
    (s.csrWrite (csrOf 0xC4) d = .next t →
      t.csrValue (csrOf 0xC4) = some ((d &&& ~~~(0xFF : Word)) ||| s.plat.coreId.setWidth 64)) ∧
    (s.csrWrite (csrOf 0x48) d = .next t → t.csrValue (csrOf 0x48) = some 0) ∧
    (s.csrWrite (csrOf 0x13) d = .next t →
      t = { s with ibox := { s.ibox with issueCtl := (s.ibox.issueCtl &&& ~~~(0x7FDFF : Word)) ||| (d &&& 0x7FDFF) } }) ∧
    (∃ j k : Nat, (s.csrRead (csrOf 0x13)).1 =
      ((s.ibox.issueCtl.extractLsb' 10 10).rotateRight j ++ (s.ibox.issueCtl.extractLsb' 0 10).rotateRight k
        : BitVec 20).setWidth 64) ∧
    (∃ old, s.csrWrite (csrOf 0x15) d = .next { s with icache := [], codeHist := old }) ∧
    (s.csrWrite (csrOf 0x26) d = .next t → ∀ k, k < 64 →
      t.ibox.hserrCnt.getLsbD k =
        (s.ibox.hserrCnt.getLsbD k && !(decide (k < 32) && d.getLsbD 0) && !(decide (k = 32) && d.getLsbD 32))) ∧
    (s.csrWrite (csrOf 0x82) d = .next t → s.sbox.intReq.getLsbD 25 = false → t.sbox.intReq = d &&& 0x0380FFFF) ∧
    (s.csrWrite (csrOf 0x0F) d = .next t →
      t.ibox.ii0 = s.ibox.ii0 &&& ~~~(d.extractLsb' 0 16) ∧ t.ibox.ii1 = s.ibox.ii1 &&& ~~~(d.extractLsb' 16 16))

/-- An index no table defines: no fault, the write does nothing, the read is unpredictable (R36). -/
def Obligations.UndefinedCsr : Prop :=
  ∀ (s : State) (ra : Reg), s.mode = .hm → s.iaMatch = false →
    (∀ n : Nat, n < 256 →
      (csrOf (BitVec.ofNat 8 n) = .undefined ↔
        n ∈ ([0x0B, 0x0C, 0x12, 0x16, 0x18, 0x1E, 0x2C, 0x2D, 0x2E, 0x2F, 0x3D, 0x3E, 0x3F, 0x51] : List Nat) ∨
          (0x54 ≤ n ∧ n ≤ 0x7F) ∨ (0x85 ≤ n ∧ n ≤ 0xBF) ∨ (0xC8 ≤ n ∧ n ≤ 0xCF))) ∧
    (∀ idx : BitVec 8, csrOf idx = .undefined →
      exec (.priWcsr ra idx) s = .next { s with pc := s.pc + 4 } ∧
      exec (.priRcsr ra idx) s = .next
        ({ s with draws := s.draws + 1 }.writeReg ra ((Config.freeBits s.draws).extractLsb' 0 64)).advance)

/-! ## Barriers, identity, HALT -/

/-- MEMB, IMEMB, RTC, RCID and RTID in every mode (R400, R401, R407 to R409; what the barriers do to the orders the
model keeps open is log 26 and log 27, that MEMB closes the merge window R230, log 28). -/
def Obligations.BarriersAndIdentity : Prop :=
  ∀ (s : State) (ra rb : Reg), s.iaMatch = false →
    exec .memb s = .next
      { s with
        pc := s.pc + 4
        codeHist := s.codeHist.map (OldStore.afterMemb (s.sbox.scCtl.getLsbD 20))
        icache := s.icacheAfterMemb
        ncRecent := []
        earlyBroken := s.earlyBroken || !s.early.isEmpty
        mergeWait := none } ∧
    (s.sbox.scCtl.getLsbD 20 = false → s.icacheAfterMemb = s.icache) ∧
    (s.sbox.scCtl.getLsbD 20 = true → ∀ l ∈ s.icacheAfterMemb, l ∈ s.icache ∧
      ∀ o ∈ s.codeHist, o.stage = .stored → l.covers o.addr o.size = false) ∧
    exec .imemb s = .next { s with pc := s.pc + 4, codeHist := s.codeHist.filter fun o => o.stage != .flushed } ∧
    exec (.rtc ra rb) s = .next (s.writeReg ra s.ebox.tc).advance ∧
    exec (.rcid ra) s = .next (s.writeReg ra (s.ebox.cidHi ++ (0 : BitVec 4) ++ s.plat.coreId)).advance ∧
    exec (.rtid ra) s = .next (s.writeReg ra s.ebox.tid).advance

/-- HALT outside HM halts the core at the next instruction, where it stays while nothing is recognised; in HM it raises
OPCDEC, or is null by the platform's parameter (R410, R711; parameter HALT_IN_HM, log 47; OPCDEC clears the lock bits by
decision D24, log 24). While halted only time passes: TC, the timer, the error window and the event counters. -/
def Obligations.HaltEffect : Prop :=
  ∀ s : State,
    (s.iaMatch = false → s.mode ≠ .hm → exec .halt s = .next { s with pc := s.pc + 4, coreState := .halted }) ∧
    (s.mode = .hm → s.plat.haltInHmNop = false →
      ∃ t, exec .halt s = .next t ∧ s.faultsTo t 0xD80 ∧ t.dbox = s.dbox ∧ t.ebox = s.ebox ∧
        t.ibox.iglInst = s.ir.setWidth 64) ∧
    (s.iaMatch = false → s.mode = .hm → s.plat.haltInHmNop = true → exec .halt s = .next { s with pc := s.pc + 4 }) ∧
    (s.inputs = [] → s.lateErrors = [] → s.coreState = .halted → s.recognised = none →
      ∃ t, step s = .next t ∧ t.pc = s.pc ∧ t.coreState = .halted ∧ t.gpr = s.gpr ∧ t.sr = s.sr ∧ t.vr = s.vr ∧
        t.fpcr = s.fpcr ∧ t.mem = s.mem ∧ t.lock = s.lock ∧ t.dbox = s.dbox ∧ t.sbox = s.sbox ∧
        t.ebox = { s.ebox with tc := t.ebox.tc } ∧
        t.ibox = { s.ibox with
          pc0Cr := t.ibox.pc0Cr, pc1Cr := t.ibox.pc1Cr, hserrCnt := t.ibox.hserrCnt, timerCtl := t.ibox.timerCtl
          pending := t.ibox.pending })

/-! ## Floating point -/

/-- SETFPECn write FPCR[1:0] and nothing else (R404, R412 to R414); disabled, they raise FEN, which the spec infers from
R402 and gives its condition and IGL_INST record in R606; the lock bits are cleared by decision D24 (R590, log 24). -/
def Obligations.SetExcCtl : Prop :=
  ∀ s : State, ∀ p ∈ ([(Instr.setfpec0, 0), (.setfpec1, 1), (.setfpec2, 2), (.setfpec3, 3)] : List (Instr × Word)),
    (s.passes .fp → exec p.1 s = .next { s with fpcr := (s.fpcr &&& ~~~(3 : Word)) ||| p.2, pc := s.pc + 4 }) ∧
    (s.iaMatch = false → s.ibox.upcr.getLsbD 1 = false ∨ s.ibox.upcr.getLsbD 0 = false →
      ∃ t, exec p.1 s = .next t ∧ s.faultsTo t 0xA80 ∧ t.dbox = s.dbox ∧ t.ebox = s.ebox ∧
        t.ibox.iglInst = s.ir.setWidth 64)

/-- The register moves and the FPCR moves; SUM is computed on the read and not stored; FLDS then FSTS gives a single
back (R402, R403, R195, R434, R436, R565 to R569). A register with another kind of data gives any value (U16, log 59). -/
def Obligations.FloatMoves : Prop :=
  (∀ (s : State) (ra fa rc fc : Reg), s.passes .fp → rc ≠ 31 → fc ≠ 31 →
    let x := s.useF fa .single
    let y := s.useF fa .image
    exec (.ifmovs ra fc) s = .next (s.writeF fc (fldsConvert ((s.readReg ra).extractLsb' 0 32)) .single).advance ∧
    exec (.ifmovd ra fc) s = .next (s.writeF fc (s.readReg ra) .image).advance ∧
    exec (.fimovs fa rc) s = .next
      (x.2.writeReg rc ((x.1.extractLsb' 62 2 ++ x.1.extractLsb' 29 30 : BitVec 32).signExtend 64)).advance ∧
    exec (.fimovd fa rc) s = .next (y.2.writeReg rc y.1).advance ∧
    exec (.rfpcr fc) s = .next
      (s.writeF fc ((s.fpcr &&& 0x7FFFFFFFFFFFFFFF) |||
        (if s.fpcr &&& 0x03F003F003F003F0 = 0 then 0 else 0x8000000000000000)) .integer).advance) ∧
  (∀ (s : State) (fa : Reg), s.passes .fp →
    let x := s.useF fa .integer
    exec (.wfpcr fa) s = .next
      { x.2 with fpcr := (s.fpcr &&& 3) ||| (x.1 &&& 0x7FFF01F001F001F0), pc := s.pc + 4 }) ∧
  (∀ m : BitVec 32, fstsConvert (fldsConvert m) = m)

/-- FADDD and VADDD when no element traps: the elements' sums, their exceptions ORed into FPCR, nothing else
(R561, R562, R571, R194, R197). With an operand of another kind than double the result is any value (U16, log 59). -/
def Obligations.FloatAdditions : Prop :=
  ∀ (s : State) (fa fb fc : Reg), fc ≠ 31 →
    let a := s.useV fa .double
    let b := a.2.useV fb .double
    let doubles := s.suits fa .double = true ∧ s.suits fb .double = true
    let o := fun k : Nat => fpAdd s.fpcr (elem a.1 k) (elem b.1 k) (elem b.2.free k)
    let bits := fun (k i : Nat) =>
      flag (o k).flags.inv i ||| flag (o k).flags.ovf (i + 2) ||| flag (o k).flags.unf (i + 3) ||| flag (o k).flags.ine (i + 4)
    (s.passes .fp → (o 0).traps.none = true → ∃ t, exec (.faddd fa fb fc) s = .next t ∧
      (doubles → t.readF fc = (o 0).value) ∧ t.kindOf fc = .double ∧
      (∀ r, r ≠ fc → t.readV r = s.readV r ∧ t.kindOf r = s.kindOf r) ∧
      t = { s with vr := t.vr, kinds := t.kinds, fpcr := s.fpcr ||| bits 0 52, pc := s.pc + 4, draws := t.draws }) ∧
    (s.passes .simd → (∀ k, k < 4 → (o k).traps.none = true) → ∃ t, exec (.vaddd fa fb fc) s = .next t ∧
      (doubles → ∀ k, k < 4 → elem (t.readV fc) k = (o k).value) ∧ t.kindOf fc = .double ∧
      (∀ r, r ≠ fc → t.readV r = s.readV r ∧ t.kindOf r = s.kindOf r) ∧
      t = { s with vr := t.vr, kinds := t.kinds, fpcr := s.fpcr ||| bits 0 52 ||| bits 1 36 ||| bits 2 20 ||| bits 3 4,
                   pc := s.pc + 4, draws := t.draws })

/-- A sum that is a normal double comes out exact in every rounding mode, and raises nothing; any other non-zero sum of
finite operands is the rounded one of RoundingBounds, a zero sum has the sign IEEE 754 gives it; below the normal range the
result is true zero with UNF (R191, R562, R624; IEEE 754 binary64). With DNZ = 1 a denormal operand counts as the
zero of its sign (R191), with DNZ = 0 its value is summed; one traps as INV with no flag where EXC_CTL[1] = 1 or DNZ = 0
(R623). A NaN operand gives a quiet
NaN, an infinite one that infinity, or, against the other infinity, a quiet NaN; each of them raises INV and nothing else, as
the table of R194 says, where the IEEE 754 list of R623 has fewer (log 63, DEDUCED, unsafe). A sum overflows exactly if,
rounded in the mode with no bound on the exponent, it is larger than the largest finite double; it then gives infinity or that
double, as the mode points, with INE (R203, R625, R628). Which exceptions trap EXC_CTL and the disable bits say: INV and OVF
with EXC_CTL[1] = 1 or INVD = 0, OVFD = 0, UNF with EXC_CTL = 2, or EXC_CTL[1] = 0 and UNFD = 0 or UNFZ = 0, INE with
EXC_CTL = 0 and INED = 0 (R202, R623 to R625, R628; OVF with EXC_CTL = 3 is decision D12). -/
def Obligations.ExactSums : Prop :=
  (∀ (f a b c free : Word), dExp a ≠ 2047 → dExp b ≠ 2047 → isDen a = false → isDen b = false →
    dExp c ≠ 2047 → dExp c ≠ 0 → exactValue c = exactValue a + exactValue b →
    fpAdd f a b free = { value := c, flags := {}, traps := {} }) ∧
  (∀ (f a b free : Word), dExp a ≠ 2047 → dExp b ≠ 2047 → (isDen a = true ∨ isDen b = true → f.getLsbD 48 = false) →
    let v := exactValue a + exactValue b
    let o := fpAdd f a b free
    (v ≠ 0 → o.value = (roundExact (f.extractLsb' 58 2) v).1) ∧
    (v ≠ 0 → v.natAbs < 2 ^ 52 → o.value = 0) ∧
    (v = 0 → o.value =
      if (if a.getLsbD 63 = b.getLsbD 63 then a.getLsbD 63 else f.extractLsb' 58 2 == (1 : BitVec 2)) then
        0x8000000000000000 else 0) ∧
    (isDen a = false → isDen b = false →
      (v ≠ 0 → o.flags = (roundExact (f.extractLsb' 58 2) v).2) ∧
      (v ≠ 0 → v.natAbs < 2 ^ 52 → o.flags = { unf := true, ine := true }) ∧
      (v = 0 → o.flags = {} ∧ o.traps = {}))) ∧
  (∀ (f a b free : Word), isDen a = true ∨ isDen b = true →
    (f.getLsbD 1 = true ∨ f.getLsbD 48 = false →
      (fpAdd f a b free).flags = {} ∧ (fpAdd f a b free).traps = { inv := true }) ∧
    (f.getLsbD 48 = true →
      let z : Word → Word := fun x => if isDen x then x &&& 0x8000000000000000 else x
      (fpAdd f a b free).value = (fpAdd f (z a) (z b) free).value ∧
      (f.getLsbD 1 = false → fpAdd f a b free = fpAdd f (z a) (z b) free))) ∧
  (∀ (f a b free : Word),
    let o := fpAdd f a b free
    let quiet := dExp o.value = 2047 ∧ o.value.getLsbD 51 = true
    (isNan a = true ∨ isNan b = true → quiet) ∧
    (isInf a = true → isInf b = true → a.getLsbD 63 ≠ b.getLsbD 63 → quiet) ∧
    (isInf a = true → isNan b = false → (isInf b = true → a.getLsbD 63 = b.getLsbD 63) → o.value = a) ∧
    (isInf b = true → isNan a = false → (isInf a = true → a.getLsbD 63 = b.getLsbD 63) → o.value = b) ∧
    (dExp a = 2047 ∨ dExp b = 2047 → isDen a = false → isDen b = false → o.flags = { inv := true })) ∧
  (∀ (f a b free : Word), dExp a ≠ 2047 → dExp b ≠ 2047 → isDen a = false → isDen b = false →
    let v := exactValue a + exactValue b
    let o := fpAdd f a b free
    let m : BitVec 2 := f.extractLsb' 58 2
    let away := (m = 1 ∧ v < 0) ∨ (m = 3 ∧ 0 < v)
    let sign : Word := if v < 0 then 0x8000000000000000 else 0
    (o.flags.ovf = true ↔ 2 ^ 2098 ≤ v.natAbs ∨
      (2 ^ 2098 - 2 ^ 2045 < v.natAbs ∧ (away ∨ (m = 2 ∧ 2 ^ 2098 - 2 ^ 2044 ≤ v.natAbs)))) ∧
    (o.flags.ovf = true → o.flags = { ovf := true, ine := true } ∧
      o.value = sign ||| (if m = 2 ∨ away then 0x7FF0000000000000 else 0x7FEFFFFFFFFFFFFF))) ∧
  (∀ (f a b free : Word), isDen a = false → isDen b = false →
    let o := fpAdd f a b free
    let c : BitVec 2 := f.extractLsb' 0 2
    (o.traps.inv = true ↔ o.flags.inv = true ∧ (c = 2 ∨ c = 3 ∨ f.getLsbD 49 = false)) ∧
    (o.traps.ovf = true ↔ o.flags.ovf = true ∧ (c = 2 ∨ c = 3 ∨ f.getLsbD 51 = false)) ∧
    (o.traps.unf = true ↔ o.flags.unf = true ∧
      (c = 2 ∨ ((c = 0 ∨ c = 1) ∧ (f.getLsbD 61 = false ∨ f.getLsbD 60 = false)))) ∧
    (o.traps.ine = true ↔ o.flags.ine = true ∧ c = 0 ∧ f.getLsbD 62 = false))

/-- Rounding: toward zero, toward minus infinity, to nearest and toward plus infinity each err to their side, always by
less than one unit and to nearest by at most half of one, a tie to the double whose last fraction bit is 0; INE says whether
the result is exact (R191, R562, R628; which mode a value of DYN names and that ties go to even is log 54). -/
def Obligations.RoundingBounds : Prop :=
  ∀ (mode : BitVec 2) (v : Int), 2 ^ 52 ≤ v.natAbs → (roundExact mode v).2.ovf = false →
    let r := exactValue (roundExact mode v).1
    dExp (roundExact mode v).1 ≠ 2047 ∧
      (mode = 0 → r.natAbs ≤ v.natAbs) ∧ (mode = 1 → r ≤ v) ∧ (mode = 3 → v ≤ r) ∧
      (mode = 2 → 2 * (r - v).natAbs * 2 ^ 52 ≤ v.natAbs) ∧ (r - v).natAbs * 2 ^ 52 < v.natAbs ∧
      (mode = 2 → ∀ k : Nat, 2 ^ (52 + k) ≤ v.natAbs → v.natAbs < 2 ^ (53 + k) → 2 * (r - v).natAbs = 2 ^ k →
        (roundExact mode v).1.getLsbD 0 = false) ∧
      ((roundExact mode v).2.ine = false ↔ r = v)

/-- A floating-point trap: FADDD or VADDD completes, then enters ARITH once, with the traps of its elements in their groups,
SWC and its destination in EXC_SUM, and its exceptions in FPCR whatever the masks (R100, R203, R621, R623 to R629). With
EXC_CTL[1] = 0 software must complete it: the destination of FADDD is any value, of VADDD the elements that trap (U8), while
the others hold their sums (DEDUCED from R571 and vector F-9 of spec/95_test_vectors.md, unsafe, log 46). The lock bits are
cleared by decision D24 (log 24), the other bits of EXC_SUM by decision D9 (log 19). -/
def Obligations.FloatTrap : Prop :=
  ∀ (s : State) (fa fb fc : Reg), fc ≠ 31 →
    let a := s.useV fa .double
    let b := a.2.useV fb .double
    let doubles := s.suits fa .double = true ∧ s.suits fb .double = true
    let o := fun k : Nat => fpAdd s.fpcr (elem a.1 k) (elem b.1 k) (elem b.2.free k)
    let group : FpFlags → Nat → Word := fun x i => flag x.inv i ||| flag x.ovf (i + 2) ||| flag x.unf (i + 3) ||| flag x.ine (i + 4)
    let swc : Word := flag (!s.fpcr.getLsbD 1) 0
    let entered : State → Prop := fun t =>
      t.pc = entryAddr s.ibox.priBase 0xB80 ∧ t.ibox.excPc = sext53 s.pc ∧
        t.lock = { s.lock with valid := false, flag := false } ∧ (∀ r, r ≠ fc → t.readV r = s.readV r) ∧
        t = { s with
          pc := t.pc, lock := t.lock, vr := t.vr, kinds := t.kinds, fpcr := t.fpcr, draws := t.draws, lastExc := t.lastExc
          ibox := { s.ibox with excPc := t.ibox.excPc, excSum := t.ibox.excSum } }
    (s.passes .fp → (o 0).traps.none = false → ∃ t, exec (.faddd fa fb fc) s = .next t ∧ entered t ∧
      t.ibox.excSum = group (o 0).traps 1 ||| swc ||| (fc.setWidth 64 <<< 8) ∧
      t.fpcr = s.fpcr ||| group (o 0).flags 52 ∧ (doubles → s.fpcr.getLsbD 1 = true → t.readF fc = (o 0).value)) ∧
    (s.passes .simd → (∃ k, k < 4 ∧ (o k).traps.none = false) → ∃ t, exec (.vaddd fa fb fc) s = .next t ∧ entered t ∧
      t.ibox.excSum = group (o 0).traps 1 ||| group (o 1).traps 15 ||| group (o 2).traps 21 ||| group (o 3).traps 27 |||
        swc ||| (fc.setWidth 64 <<< 8) ∧
      t.fpcr = s.fpcr ||| group (o 0).flags 52 ||| group (o 1).flags 36 ||| group (o 2).flags 20 ||| group (o 3).flags 4 ∧
      (doubles → ∀ k, k < 4 → s.fpcr.getLsbD 1 = true ∨ (o k).traps.none = true → elem (t.readV fc) k = (o k).value))

/-- The SIMD moves: which elements they write and what they keep, and which kind of data the destination then holds (R572
to R576, the spec's recalled forms, log 50; the kinds U16, log 59: VINSW and VEXTW work on integers, the others move any
kind). -/
def Obligations.SimdMoves : Prop :=
  ∀ (s : State) (fa fb fc : Reg) (x2 : BitVec 2) (x3 : BitVec 3), s.passes .simd → fc ≠ 31 →
    let a := s.useF fa .integer
    let b := a.2.useV fb .integer
    (∃ v k, exec (.vinsf fa fb x2 fc) s = .next (s.writeV fc v k).advance ∧
      (s.kindOf fa = s.kindOf fb → k = s.kindOf fa) ∧
      ∀ k, k < 4 → elem v k = if k = x2.toNat then s.readF fa else elem (s.readV fb) k) ∧
    (∃ v, exec (.vinsw fa fb x3 fc) s = .next (b.2.writeV fc v .integer).advance ∧
      ∀ k, k < 8 → elem32 v k = if k = x3.toNat then a.1.extractLsb' 0 32 else elem32 b.1 k) ∧
    (∃ v, exec (.vcpyf fb fc) s = .next (s.writeV fc v (s.kindOf fb)).advance ∧ ∀ k, k < 4 → elem v k = s.readF fb) ∧
    let c := s.useV fa .integer
    exec (.vextf fa x2 fc) s = .next (s.writeF fc (elem (s.readV fa) x2.toNat) (s.kindOf fa)).advance ∧
    (∃ v k, exec (.vextw fa x3 fc) s = .next ({ c.2 with draws := c.2.draws + 1 }.writeF fc v k).advance ∧
      ((v = fldsConvert (elem32 c.1 x3.toNat) ∧ k = .single) ∨ (v = (elem32 c.1 x3.toNat).setWidth 64 ∧ k = .integer)))

/-! ## Memory -/

/-- What an access that has passed its checks does to memory: a read gives the bytes, the lowest address in the lowest
byte, and changes nothing, but that the line of a non-cacheable one is dirty in the data cache no longer (`dcDirty`, the
model's own, log 67); a write puts the bytes there and changes no other byte; a later load sees the
latest store to its location, through any address of that location, but for a cacheable load after a non-cacheable store,
which R225 does not order (R212, R213, R215, R217, R251). The write of an atomic is that of a store which has taken effect at
once, in non-cacheable memory too: every later load sees it, and a store of another agent comes after it (R490, R492; that no
cacheable load of the core itself misses it is log 27). -/
def Obligations.MemoryReadWrite : Prop :=
  ∀ (s : State) (pa : PAddr) (n : Nat) (v : Vec) (nc : Bool), n ≤ 32 → s.settled pa n →
    ((s.loadPhys pa n nc).2 =
        (if isNc nc pa then { s with dcDirty := s.dcDirty.filter fun l => l != loc pa / 128 } else s) ∧
      ∀ i, i < 32 → byteOf (s.loadPhys pa n nc).1 i = if i < n then memRead s.mem (loc pa + i) else 0) ∧
    (s.memoryOk →
      let t := s.storePhys pa n v nc
      (∀ a, memRead t.mem a =
        if loc pa ≤ a ∧ a < loc pa + n then byteOf v (a - loc pa) else memRead s.mem a) ∧
      t = { s with
        mem := t.mem, codeHist := t.codeHist, ncRecent := t.ncRecent, icache := t.icache, unflushed := t.unflushed
        dcDirty := t.dcDirty, mergeWait := t.mergeWait } ∧
      (n ≠ 0 →
        let u := s.atomicStore pa n v
        u = { s.storePhys pa n v false with ncRecent := [] } ∧
        (∀ (a : BitVec 46) (b : Byte), memRead (u.agentStore a b).mem a.toNat = b) ∧
        ∀ (pa' : PAddr) (m : Nat) (nc' : Bool), m ≤ 32 → isIo pa' = false →
          ∀ i, i < m → byteOf (u.loadPhys pa' m nc').1 i =
            if loc pa ≤ loc pa' + i ∧ loc pa' + i < loc pa + n then byteOf v (loc pa' + i - loc pa)
            else memRead s.mem (loc pa' + i)) ∧
      (∀ (pa' : PAddr) (m : Nat) (nc' : Bool), isNc nc pa = false ∨ isNc nc' pa' = true → m ≤ 32 → isIo pa' = false →
        ∀ i, i < m → byteOf (t.loadPhys pa' m nc').1 i =
          if loc pa ≤ loc pa' + i ∧ loc pa' + i < loc pa + n then byteOf v (loc pa' + i - loc pa)
          else memRead s.mem (loc pa' + i)))

/-- The scalar loads: what is read, extended or converted, in the destination (R420, R425 to R429, R434, R435,
R461 to R463; the extensions are general knowledge). -/
def Obligations.ScalarLoads : Prop :=
  ∀ (s : State) (pa : PAddr) (ra rb : Reg) (disp : BitVec 16) (d12 : BitVec 12), ra ≠ 31 →
    let e := s.readReg rb + disp.signExtend 64
    let e12 := s.readReg rb + d12.signExtend 64
    (s.iaMatch = false → ∀ p ∈ ([
        (Instr.ldbu ra rb disp, s.loadReq e 1 .scalar, fun x => (x.extractLsb' 0 8).setWidth 64),
        (.ldhu ra rb disp, s.loadReq e 2 .scalar, fun x => (x.extractLsb' 0 16).setWidth 64),
        (.ldw ra rb disp, s.loadReq e 4 .scalar, fun x => (x.extractLsb' 0 32).signExtend 64),
        (.ldl ra rb disp, s.loadReq e 8 .scalar, fun x => x.extractLsb' 0 64),
        (.ldlU ra rb disp,
          if s.plat.ldlUIgnores = true then { s.loadReq e 8 .scalar with align := 1, block := 8 } else s.loadReq e 8 .scalar,
          fun x => x.extractLsb' 0 64),
        (.ldwNc ra rb d12, s.loadReq e12 4 .nonCache, fun x => (x.extractLsb' 0 32).signExtend 64),
        (.ldlNc ra rb d12, s.loadReq e12 8 .nonCache, fun x => x.extractLsb' 0 64)]
          : List (Instr × MemReq × (Vec → Word))),
      s.ready p.2.1 pa →
        let r := s.loadPhys pa p.2.1.size (p.2.1.cls == .nonCache)
        exec p.1 s = .next (r.2.writeReg ra (p.2.2 r.1)).advance) ∧
    (s.passes .fp → ∀ p ∈ ([
        (Instr.flds ra rb disp, s.loadReq e 4 .scalar, .single, fun x => fldsConvert (x.extractLsb' 0 32)),
        (.fldd ra rb disp, s.loadReq e 8 .scalar, .image, fun x => x.extractLsb' 0 64),
        (.lddNc ra rb d12, s.loadReq e12 8 .nonCache, .image, fun x => x.extractLsb' 0 64)]
          : List (Instr × MemReq × DataKind × (Vec → Word))),
      s.ready p.2.1 pa →
        let r := s.loadPhys pa p.2.1.size (p.2.1.cls == .nonCache)
        exec p.1 s = .next (r.2.writeF ra (p.2.2.2 r.1) p.2.2.1).advance)

/-- The scalar stores: the low bytes of the register, or the memory format of a single, at the address; nothing else
but the pc (R420, R430 to R433, R436, R437, R446, R464 to R466). A register with another kind of data gives any value (U16,
log 59). -/
def Obligations.ScalarStores : Prop :=
  ∀ (s : State) (pa : PAddr) (ra rb : Reg) (disp : BitVec 16) (d12 : BitVec 12),
    let e := s.readReg rb + disp.signExtend 64
    let e12 := s.readReg rb + d12.signExtend 64
    let v := s.readReg ra
    let f := s.useF ra .image
    let g := s.useF ra .single
    let single : Word := (g.1.extractLsb' 62 2 ++ g.1.extractLsb' 29 30 : BitVec 32).setWidth 64
    (s.iaMatch = false → ∀ p ∈ ([
        (Instr.stb ra rb disp, s.storeReq e 1 .scalar v), (.sth ra rb disp, s.storeReq e 2 .scalar v),
        (.stw ra rb disp, s.storeReq e 4 .scalar v), (.stl ra rb disp, s.storeReq e 8 .scalar v),
        (.stlU ra rb disp, { s.storeReq e 8 .scalar v with align := 1, block := 8 }),
        (.stwNc ra rb d12, s.storeReq e12 4 .nonCache v), (.stlNc ra rb d12, s.storeReq e12 8 .nonCache v)]
          : List (Instr × MemReq)),
      s.ready p.2 pa →
        exec p.1 s = .next (s.storePhys pa p.2.size (v.setWidth 256) (p.2.cls == .nonCache)).advance) ∧
    (s.passes .fp → ∀ p ∈ ([
        (Instr.fsts ra rb disp, s.storeReq e 4 .scalar single, single, g.2),
        (.fstd ra rb disp, s.storeReq e 8 .scalar f.1, f.1, f.2),
        (.stdNc ra rb d12, s.storeReq e12 8 .nonCache f.1, f.1, f.2)] : List (Instr × MemReq × Word × State)),
      s.ready p.2.1 pa →
        exec p.1 s = .next (p.2.2.2.storePhys pa p.2.1.size (p.2.2.1.setWidth 256) (p.2.1.cls == .nonCache)).advance)

/-- The vector loads: one datum in all elements, four singles widened, or the whole (R441 to R443, R447, R448,
R451 to R453, R467), and which kind of data the destination then holds (U16, log 59). -/
def Obligations.VectorLoads : Prop :=
  ∀ (s : State) (pa : PAddr) (fa rb : Reg) (disp : BitVec 16) (d12 : BitVec 12), fa ≠ 31 → s.passes .simd →
    let e := s.readReg rb + disp.signExtend 64
    let e12 := s.readReg rb + d12.signExtend 64
    let wide : Vec → Vec := fun m =>
      fldsConvert (m.extractLsb' 96 32) ++ fldsConvert (m.extractLsb' 64 32) ++ fldsConvert (m.extractLsb' 32 32)
        ++ fldsConvert (m.extractLsb' 0 32)
    ∀ p ∈ ([
      (Instr.ldwe fa rb disp, s.vloadReq e 4 4 .vector, .integer, fun m =>
        let w : BitVec 32 := m.extractLsb' 0 32
        (w ++ w) ++ (w ++ w) ++ (w ++ w) ++ (w ++ w)),
      (.ldse fa rb disp, s.vloadReq e 4 4 .vector, .single, fun m =>
        let x := fldsConvert (m.extractLsb' 0 32)
        x ++ x ++ x ++ x),
      (.ldde fa rb disp, s.vloadReq e 8 8 .vector, .image, fun m =>
        let x : BitVec 64 := m.extractLsb' 0 64
        x ++ x ++ x ++ x),
      (.vlds fa rb disp, { s.vloadReq e 16 16 .vector with elemAlign := 4 }, .single, wide),
      (.vldd fa rb disp, { s.vloadReq e 32 32 .vector with elemAlign := 8 }, .image, fun m => m),
      (.vldwU fa rb d12, { s.vloadReq e12 32 4 .vector with block := 32 }, .integer, fun m => m),
      (.vldsU fa rb d12, { s.vloadReq e12 16 4 .vector with block := 16 }, .single, wide),
      (.vlddU fa rb d12, { s.vloadReq e12 32 8 .vector with block := 32 }, .image, fun m => m),
      (.vlddNc fa rb d12, s.vloadReq e12 32 32 .nonCache, .image, fun m => m)]
        : List (Instr × MemReq × DataKind × (Vec → Vec))),
      s.ready p.2.1 pa →
        let r := s.loadPhys pa p.2.1.size (p.2.1.cls == .nonCache)
        exec p.1 s = .next (r.2.writeV fa (p.2.2.2 r.1) p.2.2.1).advance

/-- The vector stores: the whole, the part up to the block's end (UL), the part from the block's start (UH)
(R444, R449, R450, R454 to R459, R468, R469, R476, R477). A register with another kind of data gives any value (U16, log
59). -/
def Obligations.VectorStores : Prop :=
  ∀ (s : State) (pa : PAddr) (fa rb : Reg) (disp : BitVec 16) (d12 : BitVec 12), s.passes .simd →
    let e := s.readReg rb + disp.signExtend 64
    let e12 := s.readReg rb + d12.signExtend 64
    let same : Vec → Vec := fun v => v
    let singles : Vec → Vec := fun v =>
      (fstsConvert (elem v 3) ++ fstsConvert (elem v 2) ++ fstsConvert (elem v 1) ++ fstsConvert (elem v 0)
        : BitVec 128).setWidth 256
    let o32 := e12.toNat % 32
    let o16 := e12.toNat % 16
    ∀ p ∈ ([
      (Instr.vsts fa rb disp, { s.vstoreReq e 16 16 .vector with elemAlign := 4 }, .single, singles),
      (.vstd fa rb disp, { s.vstoreReq e 32 32 .vector with elemAlign := 8 }, .image, same),
      (.vstwU fa rb d12, { s.vstoreReq e12 32 4 .vector with block := 32 }, .integer, same),
      (.vstsU fa rb d12, { s.vstoreReq e12 16 4 .vector with block := 16 }, .single, singles),
      (.vstdU fa rb d12, { s.vstoreReq e12 32 8 .vector with block := 32 }, .image, same),
      (.vstwUl fa rb d12, s.vstoreReq e12 (32 - o32) 4 .vector, .integer, same),
      (.vstsUl fa rb d12, s.vstoreReq e12 (16 - o16) 4 .vector, .single, singles),
      (.vstdUl fa rb d12, s.vstoreReq e12 (32 - o32) 8 .vector, .image, same),
      (.vstwUh fa rb d12, { s.vstoreReq e12 o32 4 .vector with block := 32 }, .integer, fun v => v >>> (8 * (32 - o32))),
      (.vstsUh fa rb d12, { s.vstoreReq e12 o16 4 .vector with block := 16 }, .single,
        fun v => singles v >>> (8 * (16 - o16))),
      (.vstdUh fa rb d12, { s.vstoreReq e12 o32 8 .vector with block := 32 }, .image, fun v => v >>> (8 * (32 - o32))),
      (.vstdNc fa rb d12, s.vstoreReq e12 32 32 .nonCache, .image, same)] : List (Instr × MemReq × DataKind × (Vec → Vec))),
      s.ready p.2.1 pa →
        let x := s.useV fa p.2.2.1
        exec p.1 s = .next (x.2.storePhys pa p.2.1.size (p.2.2.2 x.1) (p.2.1.cls == .nonCache)).advance

/-- The cache control instructions. BAD_DVA is always taken. A line that translates to non-cacheable or I/O space makes the
instruction null; else FETCHD and FETCHD_E have no effect, FLUSHD and an eviction leave the line dirty in the data cache no
longer, and an eviction puts it in memory (`dcDirty` and `unflushed` are the model's own, log 67, log 45), where no error
stands in the data cache; where one stands a FETCHD or FETCHD_E completes as well, and may drive its line out (log 67). A DTB
miss is taken by FLUSHD, by FETCHD and FETCHD_E with DC_CTL[F_DTB_MISS] = 1 and by the evictions with DC_CTL[EVICTD_ERR_EN] =
1, a denied access by FLUSHD and by those evictions, else it is dropped; FLUSHD and those evictions take an illegal address
as a load does. The address match is made as for a read. FLUSHD and EVICTDL raise OPCDEC with CP_CTL[ELB] = 0, EVICTDG with
CP_CTL[EGB] = 0. (R169, R218, R421, R470 to R475, R478, R703; which faults are taken is decision D21, log 48; the lock bits
are cleared by decision D24, log 24, the other bits of EXC_SUM by D9, log 19, and of DS_STAT by D27, log 20.) Choices of the
model: several matching DTB entries stop it with the fault dtbMultiHit (R273, U9; log 31, DESIGN CHOICE); an eviction with
EVICTD_ERR_EN = 0 records nothing where the address is illegal (log 48, DESIGN CHOICE). -/
def Obligations.CacheControl : Prop :=
  ∀ (s : State) (rb : Reg) (disp : BitVec 16),
    let q := s.lineReq rb disp
    let flush : Instr := .flushd rb disp
    let fetches : List Instr := [.fetchd rb disp, .fetchdE rb disp]
    let evicts : List Instr := [.evictdl rb disp, .evictdg rb disp]
    let all := fetches ++ evicts ++ [flush]
    let on : Instr → Prop := fun i => s.iaMatch = false ∧
      (i = .flushd rb disp ∨ i = .evictdl rb disp → s.sbox.cpCtl.getLsbD 3 = true) ∧
      (i = .evictdg rb disp → s.sbox.cpCtl.getLsbD 4 = true)
    let next : Result := .next { s with pc := s.pc + 4 }
    let cleaned : PAddr → State := fun pa =>
      { s with pc := s.pc + 4, dcDirty := s.dcDirty.filter fun l => l != loc pa / 128 }
    let miss := s.dbox.dcCtl.getLsbD 16
    let errs := s.dbox.dcCtl.getLsbD 5
    let reaches : PAddr → Prop := fun pa => badSext q.va = false ∧
      ((q.bypasses = true ∧ pa = q.va.setWidth 48) ∨ (q.bypasses = false ∧ s.dtbLookup q.pm true false q.va = .pa pa))
    let cached : PAddr → Prop := fun pa => pa.getLsbD 47 = false ∧ pa.getLsbD 46 = false
    let faults : Instr → BitVec 16 → (Word → Prop) → Word → Prop := fun i off dva bits =>
      ∃ t, exec i s = .next t ∧ s.faultsTo t off ∧ dva t.dbox.dva ∧ t.ebox = s.ebox ∧
        t.ibox.iglInst = s.ibox.iglInst ∧ t.ibox.excSum = s.irRa.setWidth 64 <<< 8 ∧
        t.dbox.dsStat = bits ||| (s.irOp.setWidth 64 <<< 4)
    let atVa : Word → Prop := fun x => x = q.va
    (s.noDataMatch → badSext q.va = true → ∀ i ∈ all, on i → faults i 0xC80 atVa 0x800) ∧
    (∀ pa, reaches pa → ¬cached pa → ∀ i ∈ all, on i → exec i s = next) ∧
    (s.noDataMatch → ∀ pa, reaches pa → cached pa →
      (∀ i ∈ fetches, on i → ∃ t, exec i s = .next t ∧ t.pc = s.pc + 4 ∧ t.gpr = s.gpr ∧ t.sr = s.sr ∧ t.vr = s.vr ∧
        t.fpcr = s.fpcr ∧ t.lock = s.lock ∧ (s.dcErrors = [] → t = { s with pc := s.pc + 4 })) ∧
      (on flush →
        (loc pa + 128 ≤ s.plat.memSize → s.dcErrors = [] → exec flush s = .next (cleaned pa)) ∧
        (s.plat.memSize < loc pa + 128 → faults flush 0xC80 (fun x => x.extractLsb' 0 48 = pa) 0x1000)) ∧
      (errs = false ∨ (loc pa + 128 ≤ s.plat.memSize ∧ s.armed = none) → s.dcErrors = [] → ∀ i ∈ evicts, on i →
        exec i s = .next
          { cleaned pa with unflushed := s.unflushed.filter fun a => decide (a < loc pa) || decide (loc pa + 128 ≤ a) }) ∧
      (errs = true → s.plat.memSize < loc pa + 128 → ∀ i ∈ evicts, on i →
        ∃ t, exec i s = .next t ∧ t.pc = entryAddr s.ibox.priBase 0xC80 ∧ t.ibox.excPc = sext53 s.pc ∧
          t.dbox.dva.extractLsb' 0 48 = pa ∧ t.dbox.dsStat = (0x1000 : Word) ||| (s.irOp.setWidth 64 <<< 4) ∧
          t.sbox.scStat = (if s.sbox.scCtl.getLsbD 18 then s.sbox.scStat ||| 0x4000 else s.sbox.scStat) ∧
          t.gpr = s.gpr ∧ t.mem = s.mem)) ∧
    (∀ pa, reaches pa → cached pa → s.davEn = false → s.daHit q pa = true → ∀ i ∈ all, on i → faults i 0xC80 atVa 0x2000) ∧
    (s.noDataMatch → badSext q.va = false → q.bypasses = false → s.dtbLookup q.pm true false q.va = .miss →
      let entry : BitVec 16 := if q.va.getLsbD 52 then 0x900 else 0x880
      (∀ i ∈ fetches, on i → (miss = false → exec i s = next) ∧ (miss = true → faults i entry atVa 0)) ∧
      (∀ i ∈ evicts, on i → (errs = false → exec i s = next) ∧ (errs = true → faults i entry atVa 0)) ∧
      (on flush → faults flush entry atVa 0)) ∧
    (s.noDataMatch → badSext q.va = false → q.bypasses = false →
      ∀ a fr, s.dtbLookup q.pm true false q.va = .denied a fr false →
        let bits : Word := (if a then (2 : Word) else 0) ||| (if fr then (4 : Word) else 0)
        (∀ i ∈ fetches, on i → exec i s = next) ∧
        (∀ i ∈ evicts, on i → (errs = false → exec i s = next) ∧ (errs = true → faults i 0xC80 atVa bits)) ∧
        (on flush → faults flush 0xC80 atVa bits)) ∧
    (badSext q.va = false → q.bypasses = false → s.dtbLookup q.pm true false q.va = .multiple →
      ∀ i ∈ all, on i → exec i s = .fault .dtbMultiHit) ∧
    (∀ p ∈ ([(flush, 3), (.evictdl rb disp, 3), (.evictdg rb disp, 4)] : List (Instr × Nat)),
      s.sbox.cpCtl.getLsbD p.2 = false →
        ∃ t, exec p.1 s = .next t ∧ s.faultsTo t 0xD80 ∧ t.dbox = s.dbox ∧ t.ebox = s.ebox ∧
          t.ibox.iglInst = s.ir.setWidth 64)

/-! ## Atomics and locks -/

/-- The atomics and their privileged physical forms where no INCO trap is due: the old datum in the register, the new
one at the address, with nothing between (R490 to R499, R391, R396 to R398; what `atomicStore` writes is in
MemoryReadWrite). -/
def Obligations.Atomics : Prop :=
  ∀ (s : State) (pa : PAddr) (ra rb : Reg) (d : BitVec 12), s.iaMatch = false →
    let e := s.readReg rb + d.signExtend 64
    let done : Nat → (Word → Word) → Result := fun n op =>
      let r := s.loadPhys pa n false
      let old : Word := r.1.extractLsb' 0 64
      .next ((r.2.atomicStore pa n ((op old).setWidth 256)).writeReg ra
        (if n = 4 then (old.extractLsb' 0 32).signExtend 64 else old)).advance
    let traps := s.ebox.icr.getLsbD 0 = false ∧ s.dbox.dcCtl.getLsbD 10 = true
    let old : Nat → Word := fun n => (s.loadPhys pa n false).1.extractLsb' 0 64
    (∀ p ∈ ([
        (Instr.ldwInc ra rb d, 4, fun x => x + 1, (old 4).extractLsb' 0 32 = (0x7FFFFFFF : BitVec 32)),
        (.ldlInc ra rb d, 8, fun x => x + 1, old 8 = 0x7FFFFFFFFFFFFFFF),
        (.ldwDec ra rb d, 4, fun x => x - 1, (old 4).extractLsb' 0 32 = (0x80000000 : BitVec 32)),
        (.ldlDec ra rb d, 8, fun x => x - 1, old 8 = 0x8000000000000000),
        (.ldwSet ra rb d, 4, fun _ => 1, False), (.ldlSet ra rb d, 8, fun _ => 1, False)]
          : List (Instr × Nat × (Word → Word) × Prop)),
      s.ready (s.atomicReq e p.2.1) pa → ¬(traps ∧ p.2.2.2) → exec p.1 s = done p.2.1 p.2.2.1) ∧
    (∀ p ∈ ([
        (Instr.priLdwIncP ra rb d, 4, fun x => x + 1), (.priLdlIncP ra rb d, 8, fun x => x + 1),
        (.priLdwDecP ra rb d, 4, fun x => x - 1), (.priLdlDecP ra rb d, 8, fun x => x - 1),
        (.priLdwSetP ra rb d, 4, fun _ => 1), (.priLdlSetP ra rb d, 8, fun _ => 1)]
          : List (Instr × Nat × (Word → Word))),
      s.mode = .hm →
      s.ready { s.atomicReq (e &&& ~~~(BitVec.ofNat 64 (p.2.1 - 1))) p.2.1 with phys := true, align := 1 } pa →
        exec p.1 s = done p.2.1 p.2.2)

/-- INCO: with ICR[FD] = 0 and DC_CTL[ATOP_OVF_EN] = 1 an overflowing INC or DEC completes, then traps to ARITH with
INCO and its register in EXC_SUM (R493, R626; that overflow is the signed one is decision D22, that the other bits of EXC_SUM
are cleared D9, log 19, and the lock bits D24, log 24). -/
def Obligations.AtomicOverflowTrap : Prop :=
  ∀ (s : State) (pa : PAddr) (ra rb : Reg) (d : BitVec 12), s.iaMatch = false →
    s.ebox.icr.getLsbD 0 = false → s.dbox.dcCtl.getLsbD 10 = true →
    let e := s.readReg rb + d.signExtend 64
    let old : Nat → Word := fun n => (s.loadPhys pa n false).1.extractLsb' 0 64
    ∀ p ∈ ([
      (Instr.ldwInc ra rb d, 4, fun x => x + 1, (old 4).extractLsb' 0 32 = (0x7FFFFFFF : BitVec 32)),
      (.ldlInc ra rb d, 8, fun x => x + 1, old 8 = 0x7FFFFFFFFFFFFFFF),
      (.ldwDec ra rb d, 4, fun x => x - 1, (old 4).extractLsb' 0 32 = (0x80000000 : BitVec 32)),
      (.ldlDec ra rb d, 8, fun x => x - 1, old 8 = 0x8000000000000000)] : List (Instr × Nat × (Word → Word) × Prop)),
      s.ready (s.atomicReq e p.2.1) pa → p.2.2.2 →
        let u := (((s.loadPhys pa p.2.1 false).2.atomicStore pa p.2.1 ((p.2.2.1 (old p.2.1)).setWidth 256)).writeReg ra
          (if p.2.1 = 4 then ((old 4).extractLsb' 0 32).signExtend 64 else old 8))
        exec p.1 s = .next
          { u with
            pc := entryAddr s.ibox.priBase 0xB80
            ibox := { u.ibox with excPc := sext53 s.pc, excSum := (0x4000 : Word) ||| (ra.setWidth 64 <<< 8) }
            lock := { u.lock with valid := false, flag := false }
            lastExc := some .arith }

/-- The lock loads: the datum in the register, the lock register and lock_valid set, lock_flag and lock_success kept
(R501, R511; `kept` is the model's own, log 25). -/
def Obligations.LockLoads : Prop :=
  ∀ (s : State) (pa : PAddr) (ra rb : Reg) (d : BitVec 12), s.iaMatch = false →
    let e := s.readReg rb + d.signExtend 64
    (s.ready (s.lockReq e 4 false .none) pa →
      let r := s.loadPhys pa 4 false
      exec (.lldw ra rb d) s = .next
        { r.2.writeReg ra ((r.1.extractLsb' 0 32).signExtend 64) with
          pc := s.pc + 4, lock := { s.lock with valid := true, addr := pa, size := 4, kept := true } }) ∧
    (s.ready (s.lockReq e 8 false .none) pa →
      let r := s.loadPhys pa 8 false
      exec (.lldl ra rb d) s = .next
        { r.2.writeReg ra (r.1.extractLsb' 0 64) with
          pc := s.pc + 4, lock := { s.lock with valid := true, addr := pa, size := 8, kept := true } })

/-- The lock stores in their place: the store happens exactly if lock_valid and lock_flag are 1, address and size match, no
other agent has written the line, and the line is in the data cache and writable; success in lock_success, lock_valid and
lock_flag cleared, no register written (R503, R504, R507, R512; the last condition is drawn, U12, log 25). -/
def Obligations.LockStores : Prop :=
  ∀ (s : State) (pa : PAddr) (ra rb : Reg) (d : BitVec 12), s.iaMatch = false → s.lockStoreIllegal = none →
    let e := s.readReg rb + d.signExtend 64
    ∀ p ∈ ([(Instr.lstw ra rb d, 4), (.lstl ra rb d, 8)] : List (Instr × Nat)),
      s.ready (s.lockReq e p.2 true .free) pa →
      ∃ ok : Bool,
        (ok = true ↔ s.lock.valid = true ∧ s.lock.flag = true ∧ s.lock.addr = pa ∧ s.lock.size = p.2 ∧
          s.lock.kept = true ∧ (Config.freeBits s.draws).getLsbD 0 = true) ∧
        let u := if ok then { s with draws := s.draws + 1 }.storePhys pa p.2 ((s.readReg ra).setWidth 256) false
          else { s with draws := s.draws + 1 }
        exec p.1 s = .next
          { u with pc := s.pc + 4, lock := { s.lock with valid := false, flag := false, success := ok } }

/-- WR_F writes the low bit of its register to lock_flag; RD_F in its place reads lock_success, and leaves the lock state
(R502, R508). `pair` is the other word of the aligned 8 bytes (StepRunsDecoded). -/
def Obligations.LockFlagMoves : Prop :=
  ∀ (s : State) (ra : Reg), s.iaMatch = false →
    exec (.wrF ra) s = .next
      { s with lock := { s.lock with flag := (s.readReg ra).getLsbD 0 }, pc := s.pc + 4 } ∧
    (s.pc.getLsbD 2 = true → s.pairIsLockStore = true → ra ≠ 31 →
      exec (.rdF ra) s = .next (s.writeReg ra (if s.lock.success then 1 else 0)).advance) ∧
    exec (.rdF 31) s = .next { s with pc := s.pc + 4 }

/-- A lock store not in slot 0 or 2 with a non-null RD_F in the next slot, and a non-null RD_F not in slot 1 or 3 with a
lock store in the slot before, raise OPCDEC with LOCK_IGL (R505, R620). `pair` is the other word of the aligned 8 bytes
(StepRunsDecoded). The lock bits are cleared by decision D24 (log 24). -/
def Obligations.LockPosition : Prop :=
  ∀ (s : State) (ra rb : Reg) (d : BitVec 12),
    (∀ i ∈ ([.lstw ra rb d, .lstl ra rb d] : List Instr),
      ¬(s.pc.getLsbD 2 = false ∧ ∃ r, decode s.plat.supplement s.pair = some (.rdF r) ∧ r ≠ 31) →
      ∃ t, exec i s = .next t ∧ s.faultsTo t 0xD80 ∧ t.dbox = s.dbox ∧ t.ebox = s.ebox ∧
        t.ibox.iglInst = 0x100000000 ||| s.ir.setWidth 64) ∧
    (ra ≠ 31 →
      ¬(s.pc.getLsbD 2 = true ∧ ∃ x y z, decode s.plat.supplement s.pair = some (.lstw x y z) ∨
        decode s.plat.supplement s.pair = some (.lstl x y z)) →
      ∃ t, exec (.rdF ra) s = .next t ∧ s.faultsTo t 0xD80 ∧ t.dbox = s.dbox ∧ t.ebox = s.ebox ∧
        t.ibox.iglInst = 0x100000000 ||| s.ir.setWidth 64)

/-- The privileged loads and stores: at the physical address itself, or at a virtual address with the rights of
DTB_PCR[PM]; the low address bits dropped (R390 to R393, R399, R783; decision D14). A load of register 31 is null
(NullInstructions). -/
def Obligations.PrivilegedAccesses : Prop :=
  ∀ (s : State) (pa : PAddr) (ra rb : Reg) (d : BitVec 12), s.iaMatch = false → s.mode = .hm →
    let e := s.readReg rb + d.signExtend 64
    let a : Nat → Word := fun n => e &&& ~~~(BitVec.ofNat 64 (n - 1))
    let v := s.readReg ra
    let pm := modeOf (s.dbox.dtbPcr.extractLsb' 0 2)
    let l : Nat → MemReq := fun n => { s.loadReq (a n) n .scalar with align := 1 }
    let st : Nat → MemReq := fun n => { s.storeReq (a n) n .scalar v with align := 1 }
    (∀ p ∈ ([
        (Instr.priLdwP ra rb d, { l 4 with phys := true }), (.priLdlP ra rb d, { l 8 with phys := true }),
        (.priLdwV ra rb d, { l 4 with pm := pm }), (.priLdlV ra rb d, { l 8 with pm := pm }),
        (.priLdwVpte ra rb d, { l 4 with pm := pm, vpte := true }),
        (.priLdlVpte ra rb d, { l 8 with pm := pm, vpte := true })] : List (Instr × MemReq)),
      ra ≠ 31 → s.ready p.2 pa →
        let r := s.loadPhys pa p.2.size false
        exec p.1 s = .next (r.2.writeReg ra
          (if p.2.size = 4 then (r.1.extractLsb' 0 32).signExtend 64 else r.1.extractLsb' 0 64)).advance) ∧
    (∀ p ∈ ([
        (Instr.priStwP ra rb d, { st 4 with phys := true }), (.priStlP ra rb d, { st 8 with phys := true }),
        (.priStwV ra rb d, { st 4 with pm := pm }), (.priStlV ra rb d, { st 8 with pm := pm })] : List (Instr × MemReq)),
      s.ready p.2 pa → exec p.1 s = .next (s.storePhys pa p.2.size (v.setWidth 256) false).advance)

/-! ## Data faults -/

/-- Every data access whose address is not sign-extended faults to DFAULT with BAD_DVA, and, sign-extended but unaligned, to
UNALIGN; one that reaches an address its class may not use, or that nothing answers, to DFAULT with ACV1; the records of
R602, R607, R608, R610 and R613 (R236, R239, R241, R242, R421; with no data match enabled and no armed error). An I/O read or
an atomic that nothing answers sets CTL_ERR_RQ1_ACK as well (R167). Whether the /p forms are sign-checked is a platform
parameter, false by default as R391 says, where R236's last sentence says yes (log 15, DEDUCED). That DVA takes the aligned
block's physical address where an access that drops low address bits reaches one beyond memory is log 16 (DESIGN CHOICE,
unsafe). That the non-cacheable forms check their alignment is decision D19 (R422), that VLDD_NC and VSTD_NC record SIMD_MV =
0 even where their elements are aligned log 62 (DESIGN CHOICE, unsafe), and that a VSTx_UH of no byte makes its checks log 57
(DESIGN CHOICE, unsafe). WR of an atomic is left open (U11). That DVA of a PRI_LD or PRI_ST form is its address without the
low bits, where R421 and R608 say the effective address, is decision D14 (log 16, DEDUCED, unsafe for claims about those
bits). The lock bits are cleared by decision D24 (log 24), the other bits of EXC_SUM by D9 (log 19) and of DS_STAT by D27
(log 20). -/
def Obligations.AddressFaults : Prop :=
  ∀ (s : State) (i : Instr) (p : Pipe) (q : MemReq), s.dataReq i = some (p, q) → s.passes p → s.noDataMatch →
    let records : State → Word → Prop := fun t bits =>
      t.ebox = s.ebox ∧ t.ibox.iglInst = s.ibox.iglInst ∧ t.ibox.excSum = s.irRa.setWidth 64 <<< 8 ∧
        ∃ wr : Bool, (¬(q.reads = true ∧ q.writes = true) → wr = q.writes) ∧
          t.dbox.dsStat = bits ||| (s.irOp.setWidth 64 <<< 4) ||| (if wr then 1 else 0)
    (s.signChecked q = true → badSext q.va = true →
      ∃ t, exec i s = .next t ∧ s.faultsTo t 0xC80 ∧ t.dbox.dva = q.va ∧ records t 0x800) ∧
    (s.signChecked q = false ∨ badSext q.va = false → q.va.toNat % q.align ≠ 0 →
      ∃ t, exec i s = .next t ∧ s.faultsTo t 0xB00 ∧ t.dbox.dva = q.va ∧
        records t (if q.elemAlign ≠ 0 ∧ q.va.toNat % q.elemAlign = 0 then 0x8000 else 0)) ∧
    (∀ pa0, s.reaches q pa0 → s.armed = none →
      let pa := alignDown pa0 q.block
      let io := pa.getLsbD 47 = true
      let banned := (io ∧ (q.cls = .vector ∨ q.cls = .atomic ∨ q.cls = .nonCache)) ∨
        (q.cls = .lock ∧ (io ∨ pa.getLsbD 46 = true))
      let beyond := ¬io ∧ s.plat.memSize < loc pa + q.size ∧
        (q.reads = true ∨ (q.cls ≠ .nonCache ∧ pa.getLsbD 46 = false))
      let noReg := io ∧ q.reads = true ∧ s.iorAt pa = none
      (banned → ∃ t, exec i s = .next t ∧ s.faultsTo t 0xC80 ∧ t.dbox.dva = q.va ∧ records t 0x1000) ∧
      (¬banned → beyond → ¬(q.reads = true ∧ q.writes = true) →
        ∃ t, exec i s = .next t ∧ s.faultsTo t 0xC80 ∧ t.dbox.dva.extractLsb' 0 48 = pa ∧ records t 0x1000) ∧
      (¬banned → noReg ∨ (beyond ∧ q.reads = true ∧ q.writes = true) →
        ∃ t, exec i s = .next t ∧ t.pc = entryAddr s.ibox.priBase 0xC80 ∧ t.ibox.excPc = sext53 s.pc ∧
          t.dbox.dva.extractLsb' 0 48 = pa ∧ records t 0x1000 ∧
          t.sbox.scStat = (if s.sbox.scCtl.getLsbD 18 then s.sbox.scStat ||| 0x4000 else s.sbox.scStat) ∧
          t.gpr = s.gpr ∧ t.sr = s.sr ∧ t.vr = s.vr ∧ t.fpcr = s.fpcr ∧ t.mem = s.mem ∧
          t.lock = { s.lock with valid := false, flag := false }))

/-- Every translated access: a DTB miss enters DTBM_SINGLE_0 or 1 by VA[52], or DTBM_DOUBLE for a /vpte form, which writes
neither DS_STAT nor DVA; a denied access faults to DFAULT with ACV0, FOR, FOW as they apply; more than one match stops the
model (R285 to R287, R601 to R603, R611, R612, R273). Every access that reaches an address: the address match and the value
match fault to DFAULT by the table of R705, whose last clause is about the check alone, since with DAV_MATCH_EN = 1 a single
match leaves the access to the checks that follow (R439, R703 to R705; of stores wider than 8 bytes and of lock stores the
value match is open, U13, log 49). That the tests of the bits are joined by AND, and which lanes of the aligned 8 bytes a
store covers, is decision D30; that STL_U covers all eight, and that a VSTx_UH of no byte compares none and so matches with
DV_MASK = 0 alone, is log 49 (DEDUCED, unsafe); that an atomic matches under either enable log 51 (DEDUCED, unsafe); that the
physical address in DVA after a value match is that of the effective address, for STL_U and the vector forms that drop low
address bits too, and not of the aligned bytes stored, log 16 (DESIGN CHOICE, unsafe). That the matches come before the
legality of the physical address is the order of decision D3 (log 18, DEDUCED, unsafe); that DVA of a PRI_LD or PRI_ST form
is its address without the low bits decision D14 (log 16, DEDUCED, unsafe), and that a /v form with PM = VM is not translated
where VA[52] = 0 log 17 (DEDUCED, unsafe). The lock bits are cleared by decision D24 (log 24), the other bits of EXC_SUM by
D9 (log 19) and of DS_STAT by D27 (log 20). -/
def Obligations.TranslationFaults : Prop :=
  ∀ (s : State) (i : Instr) (p : Pipe) (q : MemReq), s.dataReq i = some (p, q) → s.passes p →
   (s.noDataMatch → badSext q.va = false → q.va.toNat % q.align = 0 → q.bypasses = false →
    (s.dtbLookup q.pm q.reads q.writes q.va = .miss → q.vpte = true →
      ∃ t, exec i s = .next t ∧ s.faultsTo t 0x800 ∧ t.dbox = s.dbox ∧ t.ebox = s.ebox ∧
        t.ibox.iglInst = s.ibox.iglInst ∧ t.ibox.excSum = s.irRa.setWidth 64 <<< 8) ∧
    (s.dtbLookup q.pm q.reads q.writes q.va = .miss → q.vpte = false →
      ∃ t, exec i s = .next t ∧ s.faultsTo t (if q.va.getLsbD 52 then 0x900 else 0x880) ∧ t.dbox.dva = q.va ∧
        t.ebox = s.ebox ∧ t.ibox.iglInst = s.ibox.iglInst ∧ t.ibox.excSum = s.irRa.setWidth 64 <<< 8 ∧
        ∃ wr : Bool, (¬(q.reads = true ∧ q.writes = true) → wr = q.writes) ∧
          t.dbox.dsStat = (s.irOp.setWidth 64 <<< 4) ||| (if wr then 1 else 0)) ∧
    (∀ a fr fw, s.dtbLookup q.pm q.reads q.writes q.va = .denied a fr fw →
      ∃ t, exec i s = .next t ∧ s.faultsTo t 0xC80 ∧ t.dbox.dva = q.va ∧
        t.ebox = s.ebox ∧ t.ibox.iglInst = s.ibox.iglInst ∧ t.ibox.excSum = s.irRa.setWidth 64 <<< 8 ∧
        ∃ wr : Bool, (¬(q.reads = true ∧ q.writes = true) → wr = q.writes) ∧
          t.dbox.dsStat = (if a then (2 : Word) else 0) ||| (if fr then (4 : Word) else 0) ||| (if fw then (8 : Word) else 0)
            ||| (s.irOp.setWidth 64 <<< 4) ||| (if wr then 1 else 0)) ∧
    (s.dtbLookup q.pm q.reads q.writes q.va = .multiple → exec i s = .fault .dtbMultiHit)) ∧
   (∀ pa, s.reaches q pa →
    let m := s.dbox.daMatch
    let usesPa := m.getLsbD 55
    let a : Word := if usesPa then pa.setWidth 64 else q.va
    let da := ((m.getLsbD 53 = true ∧ q.reads = true) ∨ (m.getLsbD 54 = true ∧ q.writes = true)) ∧
      (usesPa = true ∨ q.phys = false) ∧
      ∀ k, k ≤ (if usesPa then 47 else 52) → s.dbox.daMask.getLsbD k = true →
        (s.dbox.daMatchMode.getLsbD k = true ↔ a.getLsbD k = m.getLsbD k)
    let dvStated := s.dbox.dcCtl.getLsbD 19 = true ∧ ∃ n v, q.value = .bytes n v ∧
      (∀ k, k < 8 → (s.dbox.dvMask.extractLsb' (8 * k) 8 : BitVec 8) ≠ 0 → q.lane ≤ k ∧ k < q.lane + n) ∧
      ∀ k, k < 64 → s.dbox.dvMask.getLsbD k = true → (v <<< (8 * q.lane)).getLsbD k = s.dbox.dvMatch.getLsbD k
    let dav := s.dbox.dcCtl.getLsbD 20
    let faults : Word → (Word → Prop) → Prop := fun bits dva =>
      ∃ t, exec i s = .next t ∧ s.faultsTo t 0xC80 ∧ dva t.dbox.dva ∧ t.ebox = s.ebox ∧
        t.ibox.iglInst = s.ibox.iglInst ∧ t.ibox.excSum = s.irRa.setWidth 64 <<< 8 ∧
        ∃ wr : Bool, (¬(q.reads = true ∧ q.writes = true) → wr = q.writes) ∧
          t.dbox.dsStat = bits ||| (s.irOp.setWidth 64 <<< 4) ||| (if wr then 1 else 0)
    ∃ dv : Prop, (q.value ≠ .free → (dv ↔ dvStated)) ∧ (s.dbox.dcCtl.getLsbD 19 = false → ¬dv) ∧
    (dav = false → da → ¬dv → faults 0x2000 fun x => x = q.va) ∧
    (dav = false → da → dv → faults 0x182000 fun x => x = q.va) ∧
    (dav = false → ¬da → dv → faults 0x80000 fun x => x.extractLsb' 0 48 = pa) ∧
    (dav = true → da → dv → faults 0x182000 fun x => x.extractLsb' 0 48 = pa) ∧
    (q.value ≠ .free → (dav = true ∧ ¬(da ∧ dv)) ∨ (¬da ∧ ¬dv) → s.matchCheck q pa = none))

/-- What the translation-buffer registers do. ITB_PTE with ITB_TAG, and DTB_PTE with DTB_TAG into an empty DTB, make the
block of pages they name translate, of one of four granularities: the frame of the datum, the offset of the address, the
rights of the mode, FOR and FOW for data; in the virtual machine of the fill, and in its process unless KS = 1; with no other
entry every other address and context misses (R82, R141, R142, R262, R269, R275, R285, R286). An ITB or DTB invalidation takes
out exactly the entries its rule names and changes nothing else (R83 to R87, R143 to R147). -/
def Obligations.TranslationBuffers : Prop :=
  ∀ (s : State) (d : Word),
    let g := (d.extractLsb' 5 2 : BitVec 2).toNat
    let page : Nat → Word → Nat := fun g x => (x.extractLsb' 13 40 : BitVec 40).toNat / 2 ^ (5 * g)
    let vm : BitVec 2 := s.ibox.vpcr.extractLsb' 44 2
    let us : BitVec 8 := s.ibox.upcr.extractLsb' 39 8
    let dvm : BitVec 2 := s.dbox.dtbPcr.extractLsb' 62 2
    let dus : BitVec 8 := s.dbox.dtbPcr.extractLsb' 54 8
    (∃ t, s.csrWrite (csrOf 0x01) d = .next t ∧ t = { s with itb := t.itb, draws := t.draws } ∧
      ∀ pc vpcr upcr : Word, (pc.extractLsb' 0 2 : BitVec 2) ≠ 0 →
        let u := { t with pc := pc, ibox := { s.ibox with vpcr := vpcr, upcr := upcr } }
        let same := page g pc = page g s.ibox.itbTag ∧ vpcr.extractLsb' 44 2 = vm ∧
          (d.getLsbD 4 = true ∨ upcr.extractLsb' 39 8 = us)
        let enabled := d.getLsbD (match u.mode with | .um => 11 | .km => 10 | _ => 9)
        (s.itb = [] → ¬same → u.itbLookup = .miss) ∧
        (same → enabled = false → u.itbLookup = .noExecute) ∧
        (same → enabled = true → ∃ e pa, u.itbLookup = .hit e pa ∧
          pa.toNat = (d.extractLsb' 13 34 : BitVec 34).toNat / 2 ^ (5 * g) * 2 ^ (13 + 5 * g)
            + pc.toNat % 2 ^ (13 + 5 * g) / 4 * 4)) ∧
    (∀ p ∈ ([
        (0x02, fun _ => True), (0x03, fun e => e.vpn = vm), (0x04, fun e => e.vpn = vm ∧ e.ks = false),
        (0x05, fun e => e.vpn = vm ∧ e.upn = us ∧ e.ks = false),
        (0x06, fun e => e.tag.toNat / 2 ^ (5 * e.gh.toNat) = page e.gh.toNat d ∧ e.vpn = vm ∧ (e.upn = us ∨ e.ks = true))]
          : List (BitVec 8 × (ItbEntry → Prop))),
      ∃ t, s.csrWrite (csrOf p.1) d = .next t ∧ t = { s with itb := t.itb } ∧ t.itb.Sublist s.itb ∧
        ∀ e, e ∈ t.itb ↔ e ∈ s.itb ∧ ¬p.2 e) ∧
    (s.dtb = [] → ∃ t, s.csrWrite (csrOf 0x41) d = .next t ∧ t = { s with dtb := t.dtb } ∧
      ∀ (va pcr : Word) (pm : Mode) (rd wr : Bool),
        let u := { t with dbox := { s.dbox with dtbPcr := pcr } }
        let same := page g va = page g s.dbox.dtbTag ∧ pcr.extractLsb' 62 2 = dvm ∧
          (d.getLsbD 4 = true ∨ pcr.extractLsb' 54 8 = dus)
        let readOk := d.getLsbD (match pm with | .hm => 8 | .vm => 9 | .km => 10 | .um => 11)
        let writeOk := d.getLsbD (match pm with | .hm => 12 | .vm => 13 | .km => 14 | .um => 15)
        let acv := (rd = true ∧ readOk = false) ∨ (wr = true ∧ writeOk = false)
        let fr := rd && d.getLsbD 1
        let fw := wr && d.getLsbD 2
        (¬same → u.dtbLookup pm rd wr va = .miss) ∧
        (same → ¬acv → fr = false → fw = false → ∃ pa, u.dtbLookup pm rd wr va = .pa pa ∧
          pa.toNat = (d.extractLsb' 24 35 : BitVec 35).toNat / 2 ^ (5 * g) * 2 ^ (13 + 5 * g) + va.toNat % 2 ^ (13 + 5 * g)) ∧
        (same → acv → u.dtbLookup pm rd wr va = .denied true fr fw) ∧
        (same → ¬acv → (fr = true ∨ fw = true) → u.dtbLookup pm rd wr va = .denied false fr fw)) ∧
    (∀ p ∈ ([
        (0x42, fun _ => True), (0x43, fun e => e.vpn = dvm), (0x44, fun e => e.vpn = dvm ∧ e.ks = false),
        (0x45, fun e => e.vpn = dvm ∧ e.upn = dus ∧ e.ks = false),
        (0x46, fun e => e.tag.toNat / 2 ^ (5 * e.gh.toNat) = page e.gh.toNat d ∧ e.vpn = dvm ∧ (e.upn = dus ∨ e.ks = true))]
          : List (BitVec 8 × (DtbEntry → Prop))),
      ∃ t, s.csrWrite (csrOf p.1) d = .next t ∧ t = { s with dtb := t.dtb } ∧ t.dtb.Sublist s.dtb ∧
        ∀ e, e ∈ t.dtb ↔ e ∈ s.dtb ∧ ¬p.2 e)

/-! ## Exceptions and interrupts -/

/-- The entry address of every exception and interrupt, and of RESET: PRI_BASE[47:16] and the offset, in HM (R592, with
the offsets of table R591). -/
def Obligations.EntryAddresses : Prop :=
  ∀ (s : State) (recordPc : Word),
    (∀ p ∈ ([(Exc.dtbmDouble, 0x800), (.dtbmSingle0, 0x880), (.dtbmSingle1, 0x900), (.itbMiss0, 0x980), (.itbMiss1, 0xA00),
      (.fen, 0xA80), (.unalign, 0xB00), (.arith, 0xB80), (.dfault, 0xC80), (.iacv, 0xD00), (.opcdec, 0xD80),
      (.interrupt0, 0xE00), (.interrupt1, 0xE80), (.sleep, 0xF00), (.mchk, 0xF80)] : List (Exc × Nat)),
      (s.enter p.1 recordPc).pc.toNat = s.ibox.priBase.toNat / 2 ^ 16 % 2 ^ 32 * 2 ^ 16 + p.2 ∧
        (s.enter p.1 recordPc).mode = .hm) ∧
    s.atResetEntry.pc.toNat = s.ibox.priBase.toNat / 2 ^ 16 % 2 ^ 32 * 2 ^ 16 + 0x1000 ∧ s.atResetEntry.mode = .hm

/-- The checks of the decode stage, on every instruction that raises no OPCDEC: with the address match it raises IACV with
IA_MATCH, without it a floating-point or SIMD instruction raises FEN when its unit is off (R595, R606, R617, R700; LOCK_IGL =
0 on an address match is the model's choice, log 61, unsafe; the lock bits are cleared by decision D24, log 24, the other
bits of EXC_SUM by D9, log 19). The checks of the fetch before them: a sequential or branch address that is not sign-extended
faults to IACV as an access violation does, in every mode (R617; decision D7, log 22), the target of a PRI_RET that is not
with BAD_IVA, IVA and its own address and register (R618; decision D18, log 22), a translated fetch that no line and no ITB
entry hits to the ITB miss (R275, R604), one whose entry does not let the mode execute to IACV with no cause bit (R275,
R617). -/
def Obligations.DecodeFaults : Prop :=
  (∀ (s : State) (i : Instr), s.illegal i = none →
    (s.iaMatch = true →
      ∃ t, exec i s = .next t ∧ s.faultsTo t 0xD00 ∧ t.dbox = s.dbox ∧ t.ebox = s.ebox ∧
        t.ibox.iglInst = s.ir.setWidth 64 ∧ t.ibox.excSum &&& ~~~(0x1F00 : Word) = 0x200000000) ∧
    (s.iaMatch = false →
      (Instr.unit i = .fp ∨ Instr.unit i = .simd) ∧ (s.ibox.upcr.getLsbD 1 = false ∨ s.ibox.upcr.getLsbD 0 = false) ∨
        (Instr.unit i = .simd ∧ s.ibox.upcr.getLsbD 2 = false) →
      ∃ t, exec i s = .next t ∧ s.faultsTo t 0xA80 ∧ t.dbox = s.dbox ∧ t.ebox = s.ebox ∧
        t.ibox.iglInst = s.ir.setWidth 64)) ∧
  (∀ s : State, s.inputs = [] → s.coreState = .running → s.lateErrors = [] → s.recognised = none →
    let hit : ItbEntry → Prop := fun e =>
      (e.tag.toNat / 2 ^ (5 * e.gh.toNat) = (s.pc.extractLsb' 13 40 : BitVec 40).toNat / 2 ^ (5 * e.gh.toNat)) ∧
        e.vpn = s.ibox.vpcr.extractLsb' 44 2 ∧ (e.ks = true ∨ e.upn = s.ibox.upcr.extractLsb' 39 8)
    let translated := s.mode = .km ∨ s.mode = .um ∨ (s.mode = .vm ∧ s.pc.getLsbD 52 = true)
    let noLine := ∀ l ∈ s.icache, l.badTag = false ∧ l.hits s = false
    let entered : BitVec 16 → Word → Prop := fun off pc => ∃ t, step s = .next t ∧
      t.pc = entryAddr s.ibox.priBase off ∧ t.mode = .hm ∧ t.ibox.excPc = sext53 pc ∧ t.gpr = s.gpr ∧ t.sr = s.sr ∧
        t.vr = s.vr ∧ t.fpcr = s.fpcr ∧ t.mem = s.mem ∧ t.lock = { s.lock with valid := false, flag := false } ∧
        (off = 0xD00 → badSext s.pc = false ∨ s.retJump = none →
          t.ibox.excSum &&& ~~~(0x1F00 : Word) = 0 ∧ t.ebox.iva = s.ebox.iva) ∧
        (∀ pc' ra, badSext s.pc = true → s.retJump = some (pc', ra) →
          t.ibox.excSum = (0x2000 : Word) ||| (ra.setWidth 64 <<< 8) ∧ t.ebox.iva = s.pc)
    (s.retJump = none → badSext s.pc = true → entered 0xD00 s.pc) ∧
    (∀ pc ra, s.retJump = some (pc, ra) → badSext s.pc = true → entered 0xD00 pc) ∧
    (translated → badSext s.pc = false → noLine → (∀ e ∈ s.itb, ¬hit e) →
      entered (if s.pc.getLsbD 52 then 0xA00 else 0x980) s.pc) ∧
    (translated → badSext s.pc = false → noLine → ∀ e ∈ s.itb, hit e → (∀ f ∈ s.itb, hit f → f = e) →
      (match s.mode with | .um => e.uee | .km => e.kee | .vm => e.vee | .hm => true) = false → entered 0xD00 s.pc))

/-- At an instruction boundary outside HM the highest pending and enabled request is taken, MCHK before SLEEP before
INTERRUPT1 before INTERRUPT0; EXC_PC holds the instruction that would have run; in HM none is recognised (R582, R640 to
R642; that the position of a pending bit decides its class is decision D29, that the lock bits are cleared D24, log 24). -/
def Obligations.InterruptTaken : Prop :=
  ∀ s : State,
    (s.mode = .hm → s.recognised = none) ∧
    (s.mode ≠ .hm → s.inputs = [] → s.lateErrors = [] → s.coreState ≠ .asleep →
      let live : Nat → Prop := fun n => s.ibox.pending.getLsbD n = true ∧ s.ibox.ier.getLsbD n = true
      let m := s.mchkVec.toNat
      let l := s.sleepVec.toNat
      let one := ∃ n, n ≠ m ∧ n ≠ l ∧ live n
      let zero := (s.ibox.iiEr.getLsbD 0 = true ∧ s.ibox.ii0 ≠ 0) ∨ (s.ibox.iiEr.getLsbD 1 = true ∧ s.ibox.ii1 ≠ 0) ∨
        (s.ibox.iiEr.getLsbD 2 = true ∧ 0 < s.ibox.iiMail.toInt)
      let entered : BitVec 16 → Prop := fun off =>
        ∃ t, step s = .next t ∧ t.pc = entryAddr s.ibox.priBase off ∧ t.ibox.excPc = sext53 s.pc ∧
          t.coreState = .running ∧ t.lock = { s.lock with valid := false, flag := false } ∧ t.gpr = s.gpr ∧ t.sr = s.sr ∧
          t.vr = s.vr ∧ t.fpcr = s.fpcr ∧ t.mem = s.mem ∧ t.ibox.ier = s.ibox.ier ∧ t.ibox.iiEr = s.ibox.iiEr
      (live m → entered 0xF80) ∧ (¬live m → live l → entered 0xF00) ∧
        (¬live m → ¬live l → one → entered 0xE80) ∧ (¬live m → ¬live l → ¬one → zero → entered 0xE00) ∧
        (¬live m → ¬live l → ¬one → ¬zero → s.recognised = none))

/-! ## Reset -/

/-- After every reset the core starts at PRI_BASE + 0x1000 in HM; PRI_BASE is 0 after power-on and cold reset and kept
over a wake-up (R29). -/
def Obligations.ResetEntry : Prop :=
  State.reset.pc = 0x1000 ∧ State.reset.mode = .hm ∧ State.reset.ibox.priBase = 0 ∧
  ∀ s : State,
    s.wake.mode = .hm ∧ s.wake.ibox.priBase = s.ibox.priBase ∧
      s.wake.pc.toNat = s.ibox.priBase.toNat / 2 ^ 16 % 2 ^ 32 * 2 ^ 16 + 0x1000 ∧
    s.cold.pc = 0x1000 ∧ s.cold.mode = .hm ∧ s.cold.ibox.priBase = 0 ∧
    s.powerOn.pc = 0x1000 ∧ s.powerOn.mode = .hm ∧ s.powerOn.ibox.priBase = 0

/-- The reset values the spec gives, every one of table R54 (R54, R725, R728, R730; CID[3:0] is this core's number), and that
the invariants hold after reset. That lock_valid and lock_flag are 0 is decision D24 (log 24). -/
def Obligations.ResetState : Prop :=
  let r := State.reset
  r.ibox.isCtl = 0x101F8 ∧ r.ibox.issueCtl = 0xFFFFF ∧ r.ibox.intVec = 0x0000FAFBFCFDFEFF ∧ r.ibox.upcr = 7 ∧
    r.ibox.priBase = 0 ∧ r.cid.extractLsb' 0 4 = r.plat.coreId ∧ r.ibox.vpcr = 0 ∧ r.ibox.iaMatch = 0 ∧ r.ibox.iaMask = 0x7FFFFFFFFFFFFFFF ∧ r.ibox.pending = 0 ∧ r.ibox.ii0 = 0 ∧
    r.ibox.ii1 = 0 ∧ r.ibox.iiMail = 0 ∧ r.ibox.hserrCnt = 0 ∧ r.ibox.hserrTh = 0x1F ∧ r.ibox.timerCtl = 0 ∧
    r.ibox.timerTh = 0 ∧ r.ibox.ptbr = 0 ∧ r.ibox.iglInst = 0 ∧ r.ibox.softErr = 0 ∧ r.ibox.hardErr = 0 ∧
    r.dbox.dcCtl = 0x945600000000000F ∧ r.dbox.dsCtl = 0 ∧ r.dbox.daMatch = 0 ∧ r.dbox.daMask = 0x001FFFFFFFFFFFFF ∧
    r.dbox.daMatchMode = 0x001FFFFFFFFFFFFF ∧ r.dbox.dvMatch = 0 ∧ r.dbox.dvMask = 0xFFFFFFFFFFFFFFFF ∧
    r.sbox.scCtl = 0x1000FF ∧ r.sbox.cpCtl = 0x1C ∧ r.sbox.mergeOvtime = 0x100 ∧ r.sbox.intReq = 0 ∧ r.ebox.tc = 0 ∧
    r.ebox.tcCtl = 0 ∧ r.ebox.icr = 0 ∧ r.ebox.tid = 0 ∧ r.ebox.idaMatch = 0 ∧ r.ebox.idaMask = 0x001FFFFFFFFFFFFF ∧
    (∀ k : Fin 48, r.ebox.softcsr[k] = 0) ∧
    r.lock.valid = false ∧ r.lock.flag = false ∧ r.recognised = none ∧ r.memoryOk ∧ r.buffersOk ∧ r.fieldsOk

/-! ## Invariants and frames -/

/-- Every step keeps memory in its canonical form and inside memory space (R213). -/
def Obligations.StepKeepsMemory : Prop := ∀ s t : State, s.memoryOk → step s = .next t → t.memoryOk

/-- Every step keeps the translation buffers within their sizes and the ITB without overlaps (R262, R263, R269, R290). -/
def Obligations.StepKeepsBuffers : Prop := ∀ s t : State, s.buffersOk → step s = .next t → t.buffersOk

/-- Every step keeps the fields the spec fixes: FPCR's reserved bits, PRI_BASE's alignment, EXC_PC's sign extension, the
lock register's size (R34, R88, R102, R191, R194, R195). -/
def Obligations.StepKeepsFields : Prop := ∀ s t : State, s.fieldsOk → step s = .next t → t.fieldsOk

/-- Outside HM a step never changes the mode to another mode than HM, and it reaches HM only at an entry: a multiple of
128 bytes from 0x800 to 0x7F80 past PRI_BASE (R28, R381, R523, R581, R592). -/
def Obligations.HmOnlyThroughEntries : Prop :=
  ∀ s t : State, s.mode ≠ .hm → step s = .next t →
    t.mode = s.mode ∨
      (t.mode = .hm ∧ ∃ off : BitVec 16, off.toNat % 128 = 0 ∧ 0x800 ≤ off.toNat ∧ off.toNat < 0x8000 ∧
        t.pc = entryAddr t.ibox.priBase off)

/-- No instruction leaves HM but PRI_RET and PRI_RET/b (R381, R581). -/
def Obligations.OnlyPriRetLeavesHm : Prop :=
  ∀ (s t : State) (i : Instr), s.mode = .hm → exec i s = .next t → t.mode ≠ .hm → ∃ ra, i = .priRet ra ∨ i = .priRetB ra

/-- No instruction but PRI_WCSR in HM changes the privileged state that `privilegedView` lists: the entry base, the enables,
the matches and masks, the translation buffers and their context, the page-table bases, the timer, TID, ICR, the cache
controls and the SOFTCSRs (R380, R389). -/
def Obligations.PrivilegedStateProtected : Prop :=
  ∀ (s t : State) (i : Instr), (s.mode ≠ .hm ∨ ∀ ra idx, i ≠ .priWcsr ra idx) → exec i s = .next t →
    t.privilegedView = s.privilegedView

/-- Every instruction changes no byte of memory but those its store covers: the `size` bytes from the translated address
of its access (R421, R491, R580). With no error in the data cache, whose line an access could drive out, and none forced
(R151, R318, log 67). -/
def Obligations.StoreFrame : Prop :=
  ∀ (s t : State) (i : Instr), s.memoryOk → s.cleanCache → exec i s = .next t →
    ∀ a, memRead t.mem a ≠ memRead s.mem a →
      ∃ p q pa, s.dataReq i = some (p, q) ∧ q.writes = true ∧ s.translate q = .ok pa s ∧
        loc (alignDown pa q.block) ≤ a ∧ a < loc (alignDown pa q.block) + q.size

/-- Every instruction changes no register but its destination: no integer register but R[ra] or R[rc], no system register
but the one its destination names and SR23 for SYS_CALL, no vector register but V[fa] or V[fc], FPCR only by the additions
and the FPCR writes (R22, R25, R538, R560, R580). -/
def Obligations.RegisterFrame : Prop :=
  ∀ (s t : State) (i : Instr), exec i s = .next t →
    (∀ k : Fin 32, Instr.destR i ≠ some (BitVec.ofFin k) → t.gpr[k] = s.gpr[k]) ∧
    (∀ k : Fin 10, (∀ r, Instr.destR i = some r → s.srOf r ≠ some k) → (Instr.isSysCall i = true → k ≠ 9) →
      t.sr[k] = s.sr[k]) ∧
    (∀ k : Fin 32, Instr.destF i ≠ some (BitVec.ofFin k) → t.vr[k] = s.vr[k] ∧ t.kinds[k] = s.kinds[k]) ∧
    (Instr.writesFpcr i = false → t.fpcr = s.fpcr)
end

