-- ==== Sys2Proof/Laws/State.lean ====
section
/-! SUPPORT. One lemma per field per named update of the state, so that no later proof unfolds a record update. -/

namespace Sys2Proof.Machine

variable (s : State)

/-! `advance` -/

@[simp] theorem State.advance_pc : (s.advance).pc = s.pc + 4 := rfl
@[simp] theorem State.advance_gpr : (s.advance).gpr = s.gpr := rfl
@[simp] theorem State.advance_sr : (s.advance).sr = s.sr := rfl
@[simp] theorem State.advance_vr : (s.advance).vr = s.vr := rfl
@[simp] theorem State.advance_fpcr : (s.advance).fpcr = s.fpcr := rfl
@[simp] theorem State.advance_lock : (s.advance).lock = s.lock := rfl
@[simp] theorem State.advance_coreState : (s.advance).coreState = s.coreState := rfl
@[simp] theorem State.advance_mem : (s.advance).mem = s.mem := rfl
@[simp] theorem State.advance_ibox : (s.advance).ibox = s.ibox := rfl
@[simp] theorem State.advance_dbox : (s.advance).dbox = s.dbox := rfl
@[simp] theorem State.advance_sbox : (s.advance).sbox = s.sbox := rfl
@[simp] theorem State.advance_ebox : (s.advance).ebox = s.ebox := rfl
@[simp] theorem State.advance_itb : (s.advance).itb = s.itb := rfl
@[simp] theorem State.advance_dtb : (s.advance).dtb = s.dtb := rfl
@[simp] theorem State.advance_icache : (s.advance).icache = s.icache := rfl
@[simp] theorem State.advance_timerCount : (s.advance).timerCount = s.timerCount := rfl
@[simp] theorem State.advance_hserrTime : (s.advance).hserrTime = s.hserrTime := rfl
@[simp] theorem State.advance_mergeWait : (s.advance).mergeWait = s.mergeWait := rfl
@[simp] theorem State.advance_sleepBreak : (s.advance).sleepBreak = s.sleepBreak := rfl
@[simp] theorem State.advance_ior : (s.advance).ior = s.ior := rfl
@[simp] theorem State.advance_plat : (s.advance).plat = s.plat := rfl
@[simp] theorem State.advance_draws : (s.advance).draws = s.draws := rfl
@[simp] theorem State.advance_inputs : (s.advance).inputs = s.inputs := rfl
@[simp] theorem State.advance_outputs : (s.advance).outputs = s.outputs := rfl
@[simp] theorem State.advance_ir : (s.advance).ir = s.ir := rfl
@[simp] theorem State.advance_pair : (s.advance).pair = s.pair := rfl
@[simp] theorem State.advance_lastExc : (s.advance).lastExc = s.lastExc := rfl
@[simp] theorem State.advance_codeHist : (s.advance).codeHist = s.codeHist := rfl
@[simp] theorem State.advance_ncRecent : (s.advance).ncRecent = s.ncRecent := rfl
@[simp] theorem State.advance_early : (s.advance).early = s.early := rfl
@[simp] theorem State.advance_earlyBroken : (s.advance).earlyBroken = s.earlyBroken := rfl
@[simp] theorem State.advance_unflushed : (s.advance).unflushed = s.unflushed := rfl
@[simp] theorem State.advance_dcDirty : (s.advance).dcDirty = s.dcDirty := rfl
@[simp] theorem State.advance_disconnected : (s.advance).disconnected = s.disconnected := rfl
@[simp] theorem State.advance_kinds : (s.advance).kinds = s.kinds := rfl
@[simp] theorem State.advance_idaMatchWriter : (s.advance).idaMatchWriter = s.idaMatchWriter := rfl
@[simp] theorem State.advance_idaMaskWriter : (s.advance).idaMaskWriter = s.idaMaskWriter := rfl
@[simp] theorem State.advance_retJump : (s.advance).retJump = s.retJump := rfl
@[simp] theorem State.advance_timerWild : (s.advance).timerWild = s.timerWild := rfl
@[simp] theorem State.advance_lateErrors : (s.advance).lateErrors = s.lateErrors := rfl
@[simp] theorem State.advance_dcErrors : (s.advance).dcErrors = s.dcErrors := rfl
@[simp] theorem State.advance_armed : (s.advance).armed = s.armed := rfl
@[simp] theorem State.advance_armedFetch : (s.advance).armedFetch = s.armedFetch := rfl

/-! `drawn` -/

@[simp] theorem State.drawn_pc : (s.drawn).pc = s.pc := rfl
@[simp] theorem State.drawn_gpr : (s.drawn).gpr = s.gpr := rfl
@[simp] theorem State.drawn_sr : (s.drawn).sr = s.sr := rfl
@[simp] theorem State.drawn_vr : (s.drawn).vr = s.vr := rfl
@[simp] theorem State.drawn_fpcr : (s.drawn).fpcr = s.fpcr := rfl
@[simp] theorem State.drawn_lock : (s.drawn).lock = s.lock := rfl
@[simp] theorem State.drawn_coreState : (s.drawn).coreState = s.coreState := rfl
@[simp] theorem State.drawn_mem : (s.drawn).mem = s.mem := rfl
@[simp] theorem State.drawn_ibox : (s.drawn).ibox = s.ibox := rfl
@[simp] theorem State.drawn_dbox : (s.drawn).dbox = s.dbox := rfl
@[simp] theorem State.drawn_sbox : (s.drawn).sbox = s.sbox := rfl
@[simp] theorem State.drawn_ebox : (s.drawn).ebox = s.ebox := rfl
@[simp] theorem State.drawn_itb : (s.drawn).itb = s.itb := rfl
@[simp] theorem State.drawn_dtb : (s.drawn).dtb = s.dtb := rfl
@[simp] theorem State.drawn_icache : (s.drawn).icache = s.icache := rfl
@[simp] theorem State.drawn_timerCount : (s.drawn).timerCount = s.timerCount := rfl
@[simp] theorem State.drawn_hserrTime : (s.drawn).hserrTime = s.hserrTime := rfl
@[simp] theorem State.drawn_mergeWait : (s.drawn).mergeWait = s.mergeWait := rfl
@[simp] theorem State.drawn_sleepBreak : (s.drawn).sleepBreak = s.sleepBreak := rfl
@[simp] theorem State.drawn_ior : (s.drawn).ior = s.ior := rfl
@[simp] theorem State.drawn_plat : (s.drawn).plat = s.plat := rfl
@[simp] theorem State.drawn_draws : (s.drawn).draws = s.draws + 1 := rfl
@[simp] theorem State.drawn_inputs : (s.drawn).inputs = s.inputs := rfl
@[simp] theorem State.drawn_outputs : (s.drawn).outputs = s.outputs := rfl
@[simp] theorem State.drawn_ir : (s.drawn).ir = s.ir := rfl
@[simp] theorem State.drawn_pair : (s.drawn).pair = s.pair := rfl
@[simp] theorem State.drawn_lastExc : (s.drawn).lastExc = s.lastExc := rfl
@[simp] theorem State.drawn_codeHist : (s.drawn).codeHist = s.codeHist := rfl
@[simp] theorem State.drawn_ncRecent : (s.drawn).ncRecent = s.ncRecent := rfl
@[simp] theorem State.drawn_early : (s.drawn).early = s.early := rfl
@[simp] theorem State.drawn_earlyBroken : (s.drawn).earlyBroken = s.earlyBroken := rfl
@[simp] theorem State.drawn_unflushed : (s.drawn).unflushed = s.unflushed := rfl
@[simp] theorem State.drawn_dcDirty : (s.drawn).dcDirty = s.dcDirty := rfl
@[simp] theorem State.drawn_disconnected : (s.drawn).disconnected = s.disconnected := rfl
@[simp] theorem State.drawn_kinds : (s.drawn).kinds = s.kinds := rfl
@[simp] theorem State.drawn_idaMatchWriter : (s.drawn).idaMatchWriter = s.idaMatchWriter := rfl
@[simp] theorem State.drawn_idaMaskWriter : (s.drawn).idaMaskWriter = s.idaMaskWriter := rfl
@[simp] theorem State.drawn_retJump : (s.drawn).retJump = s.retJump := rfl
@[simp] theorem State.drawn_timerWild : (s.drawn).timerWild = s.timerWild := rfl
@[simp] theorem State.drawn_lateErrors : (s.drawn).lateErrors = s.lateErrors := rfl
@[simp] theorem State.drawn_dcErrors : (s.drawn).dcErrors = s.dcErrors := rfl
@[simp] theorem State.drawn_armed : (s.drawn).armed = s.armed := rfl
@[simp] theorem State.drawn_armedFetch : (s.drawn).armedFetch = s.armedFetch := rfl

/-! `enter` -/

@[simp] theorem State.enter_pc (e : Exc) (p : Word) : (s.enter e p).pc = entryAddr s.ibox.priBase e.offset := rfl
@[simp] theorem State.enter_gpr (e : Exc) (p : Word) : (s.enter e p).gpr = s.gpr := rfl
@[simp] theorem State.enter_sr (e : Exc) (p : Word) : (s.enter e p).sr = s.sr := rfl
@[simp] theorem State.enter_vr (e : Exc) (p : Word) : (s.enter e p).vr = s.vr := rfl
@[simp] theorem State.enter_fpcr (e : Exc) (p : Word) : (s.enter e p).fpcr = s.fpcr := rfl
@[simp] theorem State.enter_lock (e : Exc) (p : Word) :
    (s.enter e p).lock = { s.lock with valid := false, flag := false } := rfl
@[simp] theorem State.enter_coreState (e : Exc) (p : Word) : (s.enter e p).coreState = s.coreState := rfl
@[simp] theorem State.enter_mem (e : Exc) (p : Word) : (s.enter e p).mem = s.mem := rfl
@[simp] theorem State.enter_ibox (e : Exc) (p : Word) : (s.enter e p).ibox = { s.ibox with excPc := sext53 p } := rfl
@[simp] theorem State.enter_dbox (e : Exc) (p : Word) : (s.enter e p).dbox = s.dbox := rfl
@[simp] theorem State.enter_sbox (e : Exc) (p : Word) : (s.enter e p).sbox = s.sbox := rfl
@[simp] theorem State.enter_ebox (e : Exc) (p : Word) : (s.enter e p).ebox = s.ebox := rfl
@[simp] theorem State.enter_itb (e : Exc) (p : Word) : (s.enter e p).itb = s.itb := rfl
@[simp] theorem State.enter_dtb (e : Exc) (p : Word) : (s.enter e p).dtb = s.dtb := rfl
@[simp] theorem State.enter_icache (e : Exc) (p : Word) : (s.enter e p).icache = s.icache := rfl
@[simp] theorem State.enter_timerCount (e : Exc) (p : Word) : (s.enter e p).timerCount = s.timerCount := rfl
@[simp] theorem State.enter_hserrTime (e : Exc) (p : Word) : (s.enter e p).hserrTime = s.hserrTime := rfl
@[simp] theorem State.enter_mergeWait (e : Exc) (p : Word) : (s.enter e p).mergeWait = s.mergeWait := rfl
@[simp] theorem State.enter_sleepBreak (e : Exc) (p : Word) : (s.enter e p).sleepBreak = s.sleepBreak := rfl
@[simp] theorem State.enter_ior (e : Exc) (p : Word) : (s.enter e p).ior = s.ior := rfl
@[simp] theorem State.enter_plat (e : Exc) (p : Word) : (s.enter e p).plat = s.plat := rfl
@[simp] theorem State.enter_draws (e : Exc) (p : Word) : (s.enter e p).draws = s.draws := rfl
@[simp] theorem State.enter_inputs (e : Exc) (p : Word) : (s.enter e p).inputs = s.inputs := rfl
@[simp] theorem State.enter_outputs (e : Exc) (p : Word) : (s.enter e p).outputs = s.outputs := rfl
@[simp] theorem State.enter_ir (e : Exc) (p : Word) : (s.enter e p).ir = s.ir := rfl
@[simp] theorem State.enter_pair (e : Exc) (p : Word) : (s.enter e p).pair = s.pair := rfl
@[simp] theorem State.enter_lastExc (e : Exc) (p : Word) : (s.enter e p).lastExc = some e := rfl
@[simp] theorem State.enter_codeHist (e : Exc) (p : Word) : (s.enter e p).codeHist = s.codeHist := rfl
@[simp] theorem State.enter_ncRecent (e : Exc) (p : Word) : (s.enter e p).ncRecent = s.ncRecent := rfl
@[simp] theorem State.enter_early (e : Exc) (p : Word) : (s.enter e p).early = s.early := rfl
@[simp] theorem State.enter_earlyBroken (e : Exc) (p : Word) : (s.enter e p).earlyBroken = s.earlyBroken := rfl
@[simp] theorem State.enter_unflushed (e : Exc) (p : Word) : (s.enter e p).unflushed = s.unflushed := rfl
@[simp] theorem State.enter_dcDirty (e : Exc) (p : Word) : (s.enter e p).dcDirty = s.dcDirty := rfl
@[simp] theorem State.enter_disconnected (e : Exc) (p : Word) : (s.enter e p).disconnected = s.disconnected := rfl
@[simp] theorem State.enter_kinds (e : Exc) (p : Word) : (s.enter e p).kinds = s.kinds := rfl
@[simp] theorem State.enter_idaMatchWriter (e : Exc) (p : Word) : (s.enter e p).idaMatchWriter = s.idaMatchWriter := rfl
@[simp] theorem State.enter_idaMaskWriter (e : Exc) (p : Word) : (s.enter e p).idaMaskWriter = s.idaMaskWriter := rfl
@[simp] theorem State.enter_retJump (e : Exc) (p : Word) : (s.enter e p).retJump = s.retJump := rfl
@[simp] theorem State.enter_timerWild (e : Exc) (p : Word) : (s.enter e p).timerWild = s.timerWild := rfl
@[simp] theorem State.enter_lateErrors (e : Exc) (p : Word) : (s.enter e p).lateErrors = s.lateErrors := rfl
@[simp] theorem State.enter_dcErrors (e : Exc) (p : Word) : (s.enter e p).dcErrors = s.dcErrors := rfl
@[simp] theorem State.enter_armed (e : Exc) (p : Word) : (s.enter e p).armed = s.armed := rfl
@[simp] theorem State.enter_armedFetch (e : Exc) (p : Word) : (s.enter e p).armedFetch = s.armedFetch := rfl

/-! `priReturn` -/

@[simp] theorem State.priReturn_pc (ra : Reg) (t : Word) : (s.priReturn ra t).pc = t := rfl
@[simp] theorem State.priReturn_gpr (ra : Reg) (t : Word) : (s.priReturn ra t).gpr = s.gpr := rfl
@[simp] theorem State.priReturn_sr (ra : Reg) (t : Word) : (s.priReturn ra t).sr = s.sr := rfl
@[simp] theorem State.priReturn_vr (ra : Reg) (t : Word) : (s.priReturn ra t).vr = s.vr := rfl
@[simp] theorem State.priReturn_fpcr (ra : Reg) (t : Word) : (s.priReturn ra t).fpcr = s.fpcr := rfl
@[simp] theorem State.priReturn_lock (ra : Reg) (t : Word) :
    (s.priReturn ra t).lock = { s.lock with valid := false, flag := false } := rfl
@[simp] theorem State.priReturn_coreState (ra : Reg) (t : Word) : (s.priReturn ra t).coreState = s.coreState := rfl
@[simp] theorem State.priReturn_mem (ra : Reg) (t : Word) : (s.priReturn ra t).mem = s.mem := rfl
@[simp] theorem State.priReturn_ibox (ra : Reg) (t : Word) : (s.priReturn ra t).ibox = s.ibox := rfl
@[simp] theorem State.priReturn_dbox (ra : Reg) (t : Word) : (s.priReturn ra t).dbox = s.dbox := rfl
@[simp] theorem State.priReturn_sbox (ra : Reg) (t : Word) : (s.priReturn ra t).sbox = s.sbox := rfl
@[simp] theorem State.priReturn_ebox (ra : Reg) (t : Word) : (s.priReturn ra t).ebox = s.ebox := rfl
@[simp] theorem State.priReturn_itb (ra : Reg) (t : Word) : (s.priReturn ra t).itb = s.itb := rfl
@[simp] theorem State.priReturn_dtb (ra : Reg) (t : Word) : (s.priReturn ra t).dtb = s.dtb := rfl
@[simp] theorem State.priReturn_icache (ra : Reg) (t : Word) : (s.priReturn ra t).icache = s.icache := rfl
@[simp] theorem State.priReturn_timerCount (ra : Reg) (t : Word) : (s.priReturn ra t).timerCount = s.timerCount := rfl
@[simp] theorem State.priReturn_hserrTime (ra : Reg) (t : Word) : (s.priReturn ra t).hserrTime = s.hserrTime := rfl
@[simp] theorem State.priReturn_mergeWait (ra : Reg) (t : Word) : (s.priReturn ra t).mergeWait = s.mergeWait := rfl
@[simp] theorem State.priReturn_sleepBreak (ra : Reg) (t : Word) : (s.priReturn ra t).sleepBreak = s.sleepBreak := rfl
@[simp] theorem State.priReturn_ior (ra : Reg) (t : Word) : (s.priReturn ra t).ior = s.ior := rfl
@[simp] theorem State.priReturn_plat (ra : Reg) (t : Word) : (s.priReturn ra t).plat = s.plat := rfl
@[simp] theorem State.priReturn_draws (ra : Reg) (t : Word) : (s.priReturn ra t).draws = s.draws := rfl
@[simp] theorem State.priReturn_inputs (ra : Reg) (t : Word) : (s.priReturn ra t).inputs = s.inputs := rfl
@[simp] theorem State.priReturn_outputs (ra : Reg) (t : Word) : (s.priReturn ra t).outputs = s.outputs := rfl
@[simp] theorem State.priReturn_ir (ra : Reg) (t : Word) : (s.priReturn ra t).ir = s.ir := rfl
@[simp] theorem State.priReturn_pair (ra : Reg) (t : Word) : (s.priReturn ra t).pair = s.pair := rfl
@[simp] theorem State.priReturn_lastExc (ra : Reg) (t : Word) : (s.priReturn ra t).lastExc = s.lastExc := rfl
@[simp] theorem State.priReturn_codeHist (ra : Reg) (t : Word) : (s.priReturn ra t).codeHist = s.codeHist := rfl
@[simp] theorem State.priReturn_ncRecent (ra : Reg) (t : Word) : (s.priReturn ra t).ncRecent = s.ncRecent := rfl
@[simp] theorem State.priReturn_early (ra : Reg) (t : Word) : (s.priReturn ra t).early = s.early := rfl
@[simp] theorem State.priReturn_earlyBroken (ra : Reg) (t : Word) :
    (s.priReturn ra t).earlyBroken = s.earlyBroken := rfl
@[simp] theorem State.priReturn_unflushed (ra : Reg) (t : Word) : (s.priReturn ra t).unflushed = s.unflushed := rfl
@[simp] theorem State.priReturn_dcDirty (ra : Reg) (t : Word) : (s.priReturn ra t).dcDirty = s.dcDirty := rfl
@[simp] theorem State.priReturn_disconnected (ra : Reg) (t : Word) : (s.priReturn ra t).disconnected = s.disconnected := rfl
@[simp] theorem State.priReturn_kinds (ra : Reg) (t : Word) : (s.priReturn ra t).kinds = s.kinds := rfl
@[simp] theorem State.priReturn_idaMatchWriter (ra : Reg) (t : Word) :
    (s.priReturn ra t).idaMatchWriter = s.idaMatchWriter := rfl
@[simp] theorem State.priReturn_idaMaskWriter (ra : Reg) (t : Word) :
    (s.priReturn ra t).idaMaskWriter = s.idaMaskWriter := rfl
@[simp] theorem State.priReturn_retJump (ra : Reg) (t : Word) : (s.priReturn ra t).retJump = some (s.pc, ra) := rfl
@[simp] theorem State.priReturn_timerWild (ra : Reg) (t : Word) : (s.priReturn ra t).timerWild = s.timerWild := rfl
@[simp] theorem State.priReturn_lateErrors (ra : Reg) (t : Word) : (s.priReturn ra t).lateErrors = s.lateErrors := rfl
@[simp] theorem State.priReturn_dcErrors (ra : Reg) (t : Word) : (s.priReturn ra t).dcErrors = s.dcErrors := rfl
@[simp] theorem State.priReturn_armed (ra : Reg) (t : Word) : (s.priReturn ra t).armed = s.armed := rfl
@[simp] theorem State.priReturn_armedFetch (ra : Reg) (t : Word) : (s.priReturn ra t).armedFetch = s.armedFetch := rfl

/-! `send` -/

@[simp] theorem State.send_pc (e : OutEvent) : (s.send e).pc = s.pc := rfl
@[simp] theorem State.send_gpr (e : OutEvent) : (s.send e).gpr = s.gpr := rfl
@[simp] theorem State.send_sr (e : OutEvent) : (s.send e).sr = s.sr := rfl
@[simp] theorem State.send_vr (e : OutEvent) : (s.send e).vr = s.vr := rfl
@[simp] theorem State.send_fpcr (e : OutEvent) : (s.send e).fpcr = s.fpcr := rfl
@[simp] theorem State.send_lock (e : OutEvent) : (s.send e).lock = s.lock := rfl
@[simp] theorem State.send_coreState (e : OutEvent) : (s.send e).coreState = s.coreState := rfl
@[simp] theorem State.send_mem (e : OutEvent) : (s.send e).mem = s.mem := rfl
@[simp] theorem State.send_ibox (e : OutEvent) : (s.send e).ibox = s.ibox := rfl
@[simp] theorem State.send_dbox (e : OutEvent) : (s.send e).dbox = s.dbox := rfl
@[simp] theorem State.send_sbox (e : OutEvent) : (s.send e).sbox = s.sbox := rfl
@[simp] theorem State.send_ebox (e : OutEvent) : (s.send e).ebox = s.ebox := rfl
@[simp] theorem State.send_itb (e : OutEvent) : (s.send e).itb = s.itb := rfl
@[simp] theorem State.send_dtb (e : OutEvent) : (s.send e).dtb = s.dtb := rfl
@[simp] theorem State.send_icache (e : OutEvent) : (s.send e).icache = s.icache := rfl
@[simp] theorem State.send_timerCount (e : OutEvent) : (s.send e).timerCount = s.timerCount := rfl
@[simp] theorem State.send_hserrTime (e : OutEvent) : (s.send e).hserrTime = s.hserrTime := rfl
@[simp] theorem State.send_mergeWait (e : OutEvent) : (s.send e).mergeWait = s.mergeWait := rfl
@[simp] theorem State.send_sleepBreak (e : OutEvent) : (s.send e).sleepBreak = s.sleepBreak := rfl
@[simp] theorem State.send_ior (e : OutEvent) : (s.send e).ior = s.ior := rfl
@[simp] theorem State.send_plat (e : OutEvent) : (s.send e).plat = s.plat := rfl
@[simp] theorem State.send_draws (e : OutEvent) : (s.send e).draws = s.draws := rfl
@[simp] theorem State.send_inputs (e : OutEvent) : (s.send e).inputs = s.inputs := rfl
@[simp] theorem State.send_outputs (e : OutEvent) : (s.send e).outputs = s.outputs ++ [e] := rfl
@[simp] theorem State.send_ir (e : OutEvent) : (s.send e).ir = s.ir := rfl
@[simp] theorem State.send_pair (e : OutEvent) : (s.send e).pair = s.pair := rfl
@[simp] theorem State.send_lastExc (e : OutEvent) : (s.send e).lastExc = s.lastExc := rfl
@[simp] theorem State.send_codeHist (e : OutEvent) : (s.send e).codeHist = s.codeHist := rfl
@[simp] theorem State.send_ncRecent (e : OutEvent) : (s.send e).ncRecent = s.ncRecent := rfl
@[simp] theorem State.send_early (e : OutEvent) : (s.send e).early = s.early := rfl
@[simp] theorem State.send_earlyBroken (e : OutEvent) : (s.send e).earlyBroken = s.earlyBroken := rfl
@[simp] theorem State.send_unflushed (e : OutEvent) : (s.send e).unflushed = s.unflushed := rfl
@[simp] theorem State.send_dcDirty (e : OutEvent) : (s.send e).dcDirty = s.dcDirty := rfl
@[simp] theorem State.send_disconnected (e : OutEvent) : (s.send e).disconnected = s.disconnected := rfl
@[simp] theorem State.send_kinds (e : OutEvent) : (s.send e).kinds = s.kinds := rfl
@[simp] theorem State.send_idaMatchWriter (e : OutEvent) : (s.send e).idaMatchWriter = s.idaMatchWriter := rfl
@[simp] theorem State.send_idaMaskWriter (e : OutEvent) : (s.send e).idaMaskWriter = s.idaMaskWriter := rfl
@[simp] theorem State.send_retJump (e : OutEvent) : (s.send e).retJump = s.retJump := rfl
@[simp] theorem State.send_timerWild (e : OutEvent) : (s.send e).timerWild = s.timerWild := rfl
@[simp] theorem State.send_lateErrors (e : OutEvent) : (s.send e).lateErrors = s.lateErrors := rfl
@[simp] theorem State.send_dcErrors (e : OutEvent) : (s.send e).dcErrors = s.dcErrors := rfl
@[simp] theorem State.send_armed (e : OutEvent) : (s.send e).armed = s.armed := rfl
@[simp] theorem State.send_armedFetch (e : OutEvent) : (s.send e).armedFetch = s.armedFetch := rfl

/-! `setPending` -/

@[simp] theorem State.setPending_pc (n : BitVec 8) : (s.setPending n).pc = s.pc := rfl
@[simp] theorem State.setPending_gpr (n : BitVec 8) : (s.setPending n).gpr = s.gpr := rfl
@[simp] theorem State.setPending_sr (n : BitVec 8) : (s.setPending n).sr = s.sr := rfl
@[simp] theorem State.setPending_vr (n : BitVec 8) : (s.setPending n).vr = s.vr := rfl
@[simp] theorem State.setPending_fpcr (n : BitVec 8) : (s.setPending n).fpcr = s.fpcr := rfl
@[simp] theorem State.setPending_lock (n : BitVec 8) : (s.setPending n).lock = s.lock := rfl
@[simp] theorem State.setPending_coreState (n : BitVec 8) : (s.setPending n).coreState = s.coreState := rfl
@[simp] theorem State.setPending_mem (n : BitVec 8) : (s.setPending n).mem = s.mem := rfl
@[simp] theorem State.setPending_ibox (n : BitVec 8) :
    (s.setPending n).ibox = { s.ibox with pending := s.ibox.pending ||| ((1 : BitVec 256) <<< n.toNat) } := rfl
@[simp] theorem State.setPending_dbox (n : BitVec 8) : (s.setPending n).dbox = s.dbox := rfl
@[simp] theorem State.setPending_sbox (n : BitVec 8) : (s.setPending n).sbox = s.sbox := rfl
@[simp] theorem State.setPending_ebox (n : BitVec 8) : (s.setPending n).ebox = s.ebox := rfl
@[simp] theorem State.setPending_itb (n : BitVec 8) : (s.setPending n).itb = s.itb := rfl
@[simp] theorem State.setPending_dtb (n : BitVec 8) : (s.setPending n).dtb = s.dtb := rfl
@[simp] theorem State.setPending_icache (n : BitVec 8) : (s.setPending n).icache = s.icache := rfl
@[simp] theorem State.setPending_timerCount (n : BitVec 8) : (s.setPending n).timerCount = s.timerCount := rfl
@[simp] theorem State.setPending_hserrTime (n : BitVec 8) : (s.setPending n).hserrTime = s.hserrTime := rfl
@[simp] theorem State.setPending_mergeWait (n : BitVec 8) : (s.setPending n).mergeWait = s.mergeWait := rfl
@[simp] theorem State.setPending_sleepBreak (n : BitVec 8) : (s.setPending n).sleepBreak = s.sleepBreak := rfl
@[simp] theorem State.setPending_ior (n : BitVec 8) : (s.setPending n).ior = s.ior := rfl
@[simp] theorem State.setPending_plat (n : BitVec 8) : (s.setPending n).plat = s.plat := rfl
@[simp] theorem State.setPending_draws (n : BitVec 8) : (s.setPending n).draws = s.draws := rfl
@[simp] theorem State.setPending_inputs (n : BitVec 8) : (s.setPending n).inputs = s.inputs := rfl
@[simp] theorem State.setPending_outputs (n : BitVec 8) : (s.setPending n).outputs = s.outputs := rfl
@[simp] theorem State.setPending_ir (n : BitVec 8) : (s.setPending n).ir = s.ir := rfl
@[simp] theorem State.setPending_pair (n : BitVec 8) : (s.setPending n).pair = s.pair := rfl
@[simp] theorem State.setPending_lastExc (n : BitVec 8) : (s.setPending n).lastExc = s.lastExc := rfl
@[simp] theorem State.setPending_codeHist (n : BitVec 8) : (s.setPending n).codeHist = s.codeHist := rfl
@[simp] theorem State.setPending_ncRecent (n : BitVec 8) : (s.setPending n).ncRecent = s.ncRecent := rfl
@[simp] theorem State.setPending_early (n : BitVec 8) : (s.setPending n).early = s.early := rfl
@[simp] theorem State.setPending_earlyBroken (n : BitVec 8) : (s.setPending n).earlyBroken = s.earlyBroken := rfl
@[simp] theorem State.setPending_unflushed (n : BitVec 8) : (s.setPending n).unflushed = s.unflushed := rfl
@[simp] theorem State.setPending_dcDirty (n : BitVec 8) : (s.setPending n).dcDirty = s.dcDirty := rfl
@[simp] theorem State.setPending_disconnected (n : BitVec 8) : (s.setPending n).disconnected = s.disconnected := rfl
@[simp] theorem State.setPending_kinds (n : BitVec 8) : (s.setPending n).kinds = s.kinds := rfl
@[simp] theorem State.setPending_idaMatchWriter (n : BitVec 8) :
    (s.setPending n).idaMatchWriter = s.idaMatchWriter := rfl
@[simp] theorem State.setPending_idaMaskWriter (n : BitVec 8) : (s.setPending n).idaMaskWriter = s.idaMaskWriter := rfl
@[simp] theorem State.setPending_retJump (n : BitVec 8) : (s.setPending n).retJump = s.retJump := rfl
@[simp] theorem State.setPending_timerWild (n : BitVec 8) : (s.setPending n).timerWild = s.timerWild := rfl
@[simp] theorem State.setPending_lateErrors (n : BitVec 8) : (s.setPending n).lateErrors = s.lateErrors := rfl
@[simp] theorem State.setPending_dcErrors (n : BitVec 8) : (s.setPending n).dcErrors = s.dcErrors := rfl
@[simp] theorem State.setPending_armed (n : BitVec 8) : (s.setPending n).armed = s.armed := rfl
@[simp] theorem State.setPending_armedFetch (n : BitVec 8) : (s.setPending n).armedFetch = s.armedFetch := rfl

/-! `setExcSum` -/

@[simp] theorem State.setExcSum_pc (b : Word) (r : BitVec 5) : (s.setExcSum b r).pc = s.pc := rfl
@[simp] theorem State.setExcSum_gpr (b : Word) (r : BitVec 5) : (s.setExcSum b r).gpr = s.gpr := rfl
@[simp] theorem State.setExcSum_sr (b : Word) (r : BitVec 5) : (s.setExcSum b r).sr = s.sr := rfl
@[simp] theorem State.setExcSum_vr (b : Word) (r : BitVec 5) : (s.setExcSum b r).vr = s.vr := rfl
@[simp] theorem State.setExcSum_fpcr (b : Word) (r : BitVec 5) : (s.setExcSum b r).fpcr = s.fpcr := rfl
@[simp] theorem State.setExcSum_lock (b : Word) (r : BitVec 5) : (s.setExcSum b r).lock = s.lock := rfl
@[simp] theorem State.setExcSum_coreState (b : Word) (r : BitVec 5) : (s.setExcSum b r).coreState = s.coreState := rfl
@[simp] theorem State.setExcSum_mem (b : Word) (r : BitVec 5) : (s.setExcSum b r).mem = s.mem := rfl
@[simp] theorem State.setExcSum_ibox (b : Word) (r : BitVec 5) :
    (s.setExcSum b r).ibox = { s.ibox with excSum := b ||| (r.setWidth 64 <<< 8) } := rfl
@[simp] theorem State.setExcSum_dbox (b : Word) (r : BitVec 5) : (s.setExcSum b r).dbox = s.dbox := rfl
@[simp] theorem State.setExcSum_sbox (b : Word) (r : BitVec 5) : (s.setExcSum b r).sbox = s.sbox := rfl
@[simp] theorem State.setExcSum_ebox (b : Word) (r : BitVec 5) : (s.setExcSum b r).ebox = s.ebox := rfl
@[simp] theorem State.setExcSum_itb (b : Word) (r : BitVec 5) : (s.setExcSum b r).itb = s.itb := rfl
@[simp] theorem State.setExcSum_dtb (b : Word) (r : BitVec 5) : (s.setExcSum b r).dtb = s.dtb := rfl
@[simp] theorem State.setExcSum_icache (b : Word) (r : BitVec 5) : (s.setExcSum b r).icache = s.icache := rfl
@[simp] theorem State.setExcSum_timerCount (b : Word) (r : BitVec 5) :
    (s.setExcSum b r).timerCount = s.timerCount := rfl
@[simp] theorem State.setExcSum_hserrTime (b : Word) (r : BitVec 5) : (s.setExcSum b r).hserrTime = s.hserrTime := rfl
@[simp] theorem State.setExcSum_mergeWait (b : Word) (r : BitVec 5) : (s.setExcSum b r).mergeWait = s.mergeWait := rfl
@[simp] theorem State.setExcSum_sleepBreak (b : Word) (r : BitVec 5) :
    (s.setExcSum b r).sleepBreak = s.sleepBreak := rfl
@[simp] theorem State.setExcSum_ior (b : Word) (r : BitVec 5) : (s.setExcSum b r).ior = s.ior := rfl
@[simp] theorem State.setExcSum_plat (b : Word) (r : BitVec 5) : (s.setExcSum b r).plat = s.plat := rfl
@[simp] theorem State.setExcSum_draws (b : Word) (r : BitVec 5) : (s.setExcSum b r).draws = s.draws := rfl
@[simp] theorem State.setExcSum_inputs (b : Word) (r : BitVec 5) : (s.setExcSum b r).inputs = s.inputs := rfl
@[simp] theorem State.setExcSum_outputs (b : Word) (r : BitVec 5) : (s.setExcSum b r).outputs = s.outputs := rfl
@[simp] theorem State.setExcSum_ir (b : Word) (r : BitVec 5) : (s.setExcSum b r).ir = s.ir := rfl
@[simp] theorem State.setExcSum_pair (b : Word) (r : BitVec 5) : (s.setExcSum b r).pair = s.pair := rfl
@[simp] theorem State.setExcSum_lastExc (b : Word) (r : BitVec 5) : (s.setExcSum b r).lastExc = s.lastExc := rfl
@[simp] theorem State.setExcSum_codeHist (b : Word) (r : BitVec 5) : (s.setExcSum b r).codeHist = s.codeHist := rfl
@[simp] theorem State.setExcSum_ncRecent (b : Word) (r : BitVec 5) : (s.setExcSum b r).ncRecent = s.ncRecent := rfl
@[simp] theorem State.setExcSum_early (b : Word) (r : BitVec 5) : (s.setExcSum b r).early = s.early := rfl
@[simp] theorem State.setExcSum_earlyBroken (b : Word) (r : BitVec 5) :
    (s.setExcSum b r).earlyBroken = s.earlyBroken := rfl
@[simp] theorem State.setExcSum_unflushed (b : Word) (r : BitVec 5) : (s.setExcSum b r).unflushed = s.unflushed := rfl
@[simp] theorem State.setExcSum_dcDirty (b : Word) (r : BitVec 5) : (s.setExcSum b r).dcDirty = s.dcDirty := rfl
@[simp] theorem State.setExcSum_disconnected (b : Word) (r : BitVec 5) : (s.setExcSum b r).disconnected = s.disconnected := rfl
@[simp] theorem State.setExcSum_kinds (b : Word) (r : BitVec 5) : (s.setExcSum b r).kinds = s.kinds := rfl
@[simp] theorem State.setExcSum_idaMatchWriter (b : Word) (r : BitVec 5) :
    (s.setExcSum b r).idaMatchWriter = s.idaMatchWriter := rfl
@[simp] theorem State.setExcSum_idaMaskWriter (b : Word) (r : BitVec 5) :
    (s.setExcSum b r).idaMaskWriter = s.idaMaskWriter := rfl
@[simp] theorem State.setExcSum_retJump (b : Word) (r : BitVec 5) : (s.setExcSum b r).retJump = s.retJump := rfl
@[simp] theorem State.setExcSum_timerWild (b : Word) (r : BitVec 5) : (s.setExcSum b r).timerWild = s.timerWild := rfl
@[simp] theorem State.setExcSum_lateErrors (b : Word) (r : BitVec 5) :
    (s.setExcSum b r).lateErrors = s.lateErrors := rfl
@[simp] theorem State.setExcSum_dcErrors (b : Word) (r : BitVec 5) : (s.setExcSum b r).dcErrors = s.dcErrors := rfl
@[simp] theorem State.setExcSum_armed (b : Word) (r : BitVec 5) : (s.setExcSum b r).armed = s.armed := rfl
@[simp] theorem State.setExcSum_armedFetch (b : Word) (r : BitVec 5) :
    (s.setExcSum b r).armedFetch = s.armedFetch := rfl

/-! `setExcSumFree` -/

@[simp] theorem State.setExcSumFree_pc (b : Word) : (s.setExcSumFree b).pc = s.pc := rfl
@[simp] theorem State.setExcSumFree_gpr (b : Word) : (s.setExcSumFree b).gpr = s.gpr := rfl
@[simp] theorem State.setExcSumFree_sr (b : Word) : (s.setExcSumFree b).sr = s.sr := rfl
@[simp] theorem State.setExcSumFree_vr (b : Word) : (s.setExcSumFree b).vr = s.vr := rfl
@[simp] theorem State.setExcSumFree_fpcr (b : Word) : (s.setExcSumFree b).fpcr = s.fpcr := rfl
@[simp] theorem State.setExcSumFree_lock (b : Word) : (s.setExcSumFree b).lock = s.lock := rfl
@[simp] theorem State.setExcSumFree_coreState (b : Word) : (s.setExcSumFree b).coreState = s.coreState := rfl
@[simp] theorem State.setExcSumFree_mem (b : Word) : (s.setExcSumFree b).mem = s.mem := rfl
@[simp] theorem State.setExcSumFree_ibox (b : Word) :
    (s.setExcSumFree b).ibox = { s.ibox with excSum := b ||| ((s.free.extractLsb' 0 5 : BitVec 5).setWidth 64 <<< 8) } := rfl
@[simp] theorem State.setExcSumFree_dbox (b : Word) : (s.setExcSumFree b).dbox = s.dbox := rfl
@[simp] theorem State.setExcSumFree_sbox (b : Word) : (s.setExcSumFree b).sbox = s.sbox := rfl
@[simp] theorem State.setExcSumFree_ebox (b : Word) : (s.setExcSumFree b).ebox = s.ebox := rfl
@[simp] theorem State.setExcSumFree_itb (b : Word) : (s.setExcSumFree b).itb = s.itb := rfl
@[simp] theorem State.setExcSumFree_dtb (b : Word) : (s.setExcSumFree b).dtb = s.dtb := rfl
@[simp] theorem State.setExcSumFree_icache (b : Word) : (s.setExcSumFree b).icache = s.icache := rfl
@[simp] theorem State.setExcSumFree_timerCount (b : Word) : (s.setExcSumFree b).timerCount = s.timerCount := rfl
@[simp] theorem State.setExcSumFree_hserrTime (b : Word) : (s.setExcSumFree b).hserrTime = s.hserrTime := rfl
@[simp] theorem State.setExcSumFree_mergeWait (b : Word) : (s.setExcSumFree b).mergeWait = s.mergeWait := rfl
@[simp] theorem State.setExcSumFree_sleepBreak (b : Word) : (s.setExcSumFree b).sleepBreak = s.sleepBreak := rfl
@[simp] theorem State.setExcSumFree_ior (b : Word) : (s.setExcSumFree b).ior = s.ior := rfl
@[simp] theorem State.setExcSumFree_plat (b : Word) : (s.setExcSumFree b).plat = s.plat := rfl
@[simp] theorem State.setExcSumFree_draws (b : Word) : (s.setExcSumFree b).draws = s.draws + 1 := rfl
@[simp] theorem State.setExcSumFree_inputs (b : Word) : (s.setExcSumFree b).inputs = s.inputs := rfl
@[simp] theorem State.setExcSumFree_outputs (b : Word) : (s.setExcSumFree b).outputs = s.outputs := rfl
@[simp] theorem State.setExcSumFree_ir (b : Word) : (s.setExcSumFree b).ir = s.ir := rfl
@[simp] theorem State.setExcSumFree_pair (b : Word) : (s.setExcSumFree b).pair = s.pair := rfl
@[simp] theorem State.setExcSumFree_lastExc (b : Word) : (s.setExcSumFree b).lastExc = s.lastExc := rfl
@[simp] theorem State.setExcSumFree_codeHist (b : Word) : (s.setExcSumFree b).codeHist = s.codeHist := rfl
@[simp] theorem State.setExcSumFree_ncRecent (b : Word) : (s.setExcSumFree b).ncRecent = s.ncRecent := rfl
@[simp] theorem State.setExcSumFree_early (b : Word) : (s.setExcSumFree b).early = s.early := rfl
@[simp] theorem State.setExcSumFree_earlyBroken (b : Word) : (s.setExcSumFree b).earlyBroken = s.earlyBroken := rfl
@[simp] theorem State.setExcSumFree_unflushed (b : Word) : (s.setExcSumFree b).unflushed = s.unflushed := rfl
@[simp] theorem State.setExcSumFree_dcDirty (b : Word) : (s.setExcSumFree b).dcDirty = s.dcDirty := rfl
@[simp] theorem State.setExcSumFree_disconnected (b : Word) : (s.setExcSumFree b).disconnected = s.disconnected := rfl
@[simp] theorem State.setExcSumFree_kinds (b : Word) : (s.setExcSumFree b).kinds = s.kinds := rfl
@[simp] theorem State.setExcSumFree_idaMatchWriter (b : Word) :
    (s.setExcSumFree b).idaMatchWriter = s.idaMatchWriter := rfl
@[simp] theorem State.setExcSumFree_idaMaskWriter (b : Word) :
    (s.setExcSumFree b).idaMaskWriter = s.idaMaskWriter := rfl
@[simp] theorem State.setExcSumFree_retJump (b : Word) : (s.setExcSumFree b).retJump = s.retJump := rfl
@[simp] theorem State.setExcSumFree_timerWild (b : Word) : (s.setExcSumFree b).timerWild = s.timerWild := rfl
@[simp] theorem State.setExcSumFree_lateErrors (b : Word) : (s.setExcSumFree b).lateErrors = s.lateErrors := rfl
@[simp] theorem State.setExcSumFree_dcErrors (b : Word) : (s.setExcSumFree b).dcErrors = s.dcErrors := rfl
@[simp] theorem State.setExcSumFree_armed (b : Word) : (s.setExcSumFree b).armed = s.armed := rfl
@[simp] theorem State.setExcSumFree_armedFetch (b : Word) : (s.setExcSumFree b).armedFetch = s.armedFetch := rfl

/-! `setIglInst` -/

@[simp] theorem State.setIglInst_pc (b : Bool) : (s.setIglInst b).pc = s.pc := rfl
@[simp] theorem State.setIglInst_gpr (b : Bool) : (s.setIglInst b).gpr = s.gpr := rfl
@[simp] theorem State.setIglInst_sr (b : Bool) : (s.setIglInst b).sr = s.sr := rfl
@[simp] theorem State.setIglInst_vr (b : Bool) : (s.setIglInst b).vr = s.vr := rfl
@[simp] theorem State.setIglInst_fpcr (b : Bool) : (s.setIglInst b).fpcr = s.fpcr := rfl
@[simp] theorem State.setIglInst_lock (b : Bool) : (s.setIglInst b).lock = s.lock := rfl
@[simp] theorem State.setIglInst_coreState (b : Bool) : (s.setIglInst b).coreState = s.coreState := rfl
@[simp] theorem State.setIglInst_mem (b : Bool) : (s.setIglInst b).mem = s.mem := rfl
@[simp] theorem State.setIglInst_ibox (b : Bool) :
    (s.setIglInst b).ibox = { s.ibox with iglInst := flag b 32 ||| s.ir.setWidth 64 } := rfl
@[simp] theorem State.setIglInst_dbox (b : Bool) : (s.setIglInst b).dbox = s.dbox := rfl
@[simp] theorem State.setIglInst_sbox (b : Bool) : (s.setIglInst b).sbox = s.sbox := rfl
@[simp] theorem State.setIglInst_ebox (b : Bool) : (s.setIglInst b).ebox = s.ebox := rfl
@[simp] theorem State.setIglInst_itb (b : Bool) : (s.setIglInst b).itb = s.itb := rfl
@[simp] theorem State.setIglInst_dtb (b : Bool) : (s.setIglInst b).dtb = s.dtb := rfl
@[simp] theorem State.setIglInst_icache (b : Bool) : (s.setIglInst b).icache = s.icache := rfl
@[simp] theorem State.setIglInst_timerCount (b : Bool) : (s.setIglInst b).timerCount = s.timerCount := rfl
@[simp] theorem State.setIglInst_hserrTime (b : Bool) : (s.setIglInst b).hserrTime = s.hserrTime := rfl
@[simp] theorem State.setIglInst_mergeWait (b : Bool) : (s.setIglInst b).mergeWait = s.mergeWait := rfl
@[simp] theorem State.setIglInst_sleepBreak (b : Bool) : (s.setIglInst b).sleepBreak = s.sleepBreak := rfl
@[simp] theorem State.setIglInst_ior (b : Bool) : (s.setIglInst b).ior = s.ior := rfl
@[simp] theorem State.setIglInst_plat (b : Bool) : (s.setIglInst b).plat = s.plat := rfl
@[simp] theorem State.setIglInst_draws (b : Bool) : (s.setIglInst b).draws = s.draws := rfl
@[simp] theorem State.setIglInst_inputs (b : Bool) : (s.setIglInst b).inputs = s.inputs := rfl
@[simp] theorem State.setIglInst_outputs (b : Bool) : (s.setIglInst b).outputs = s.outputs := rfl
@[simp] theorem State.setIglInst_ir (b : Bool) : (s.setIglInst b).ir = s.ir := rfl
@[simp] theorem State.setIglInst_pair (b : Bool) : (s.setIglInst b).pair = s.pair := rfl
@[simp] theorem State.setIglInst_lastExc (b : Bool) : (s.setIglInst b).lastExc = s.lastExc := rfl
@[simp] theorem State.setIglInst_codeHist (b : Bool) : (s.setIglInst b).codeHist = s.codeHist := rfl
@[simp] theorem State.setIglInst_ncRecent (b : Bool) : (s.setIglInst b).ncRecent = s.ncRecent := rfl
@[simp] theorem State.setIglInst_early (b : Bool) : (s.setIglInst b).early = s.early := rfl
@[simp] theorem State.setIglInst_earlyBroken (b : Bool) : (s.setIglInst b).earlyBroken = s.earlyBroken := rfl
@[simp] theorem State.setIglInst_unflushed (b : Bool) : (s.setIglInst b).unflushed = s.unflushed := rfl
@[simp] theorem State.setIglInst_dcDirty (b : Bool) : (s.setIglInst b).dcDirty = s.dcDirty := rfl
@[simp] theorem State.setIglInst_disconnected (b : Bool) : (s.setIglInst b).disconnected = s.disconnected := rfl
@[simp] theorem State.setIglInst_kinds (b : Bool) : (s.setIglInst b).kinds = s.kinds := rfl
@[simp] theorem State.setIglInst_idaMatchWriter (b : Bool) : (s.setIglInst b).idaMatchWriter = s.idaMatchWriter := rfl
@[simp] theorem State.setIglInst_idaMaskWriter (b : Bool) : (s.setIglInst b).idaMaskWriter = s.idaMaskWriter := rfl
@[simp] theorem State.setIglInst_retJump (b : Bool) : (s.setIglInst b).retJump = s.retJump := rfl
@[simp] theorem State.setIglInst_timerWild (b : Bool) : (s.setIglInst b).timerWild = s.timerWild := rfl
@[simp] theorem State.setIglInst_lateErrors (b : Bool) : (s.setIglInst b).lateErrors = s.lateErrors := rfl
@[simp] theorem State.setIglInst_dcErrors (b : Bool) : (s.setIglInst b).dcErrors = s.dcErrors := rfl
@[simp] theorem State.setIglInst_armed (b : Bool) : (s.setIglInst b).armed = s.armed := rfl
@[simp] theorem State.setIglInst_armedFetch (b : Bool) : (s.setIglInst b).armedFetch = s.armedFetch := rfl

/-! `setDsStat` -/

@[simp] theorem State.setDsStat_pc (b : Word) (w : Bool) : (s.setDsStat b w).pc = s.pc := rfl
@[simp] theorem State.setDsStat_gpr (b : Word) (w : Bool) : (s.setDsStat b w).gpr = s.gpr := rfl
@[simp] theorem State.setDsStat_sr (b : Word) (w : Bool) : (s.setDsStat b w).sr = s.sr := rfl
@[simp] theorem State.setDsStat_vr (b : Word) (w : Bool) : (s.setDsStat b w).vr = s.vr := rfl
@[simp] theorem State.setDsStat_fpcr (b : Word) (w : Bool) : (s.setDsStat b w).fpcr = s.fpcr := rfl
@[simp] theorem State.setDsStat_lock (b : Word) (w : Bool) : (s.setDsStat b w).lock = s.lock := rfl
@[simp] theorem State.setDsStat_coreState (b : Word) (w : Bool) : (s.setDsStat b w).coreState = s.coreState := rfl
@[simp] theorem State.setDsStat_mem (b : Word) (w : Bool) : (s.setDsStat b w).mem = s.mem := rfl
@[simp] theorem State.setDsStat_ibox (b : Word) (w : Bool) : (s.setDsStat b w).ibox = s.ibox := rfl
@[simp] theorem State.setDsStat_dbox (b : Word) (w : Bool) :
    (s.setDsStat b w).dbox = { s.dbox with dsStat := b ||| (s.irOp.setWidth 64 <<< 4) ||| flag w 0 } := rfl
@[simp] theorem State.setDsStat_sbox (b : Word) (w : Bool) : (s.setDsStat b w).sbox = s.sbox := rfl
@[simp] theorem State.setDsStat_ebox (b : Word) (w : Bool) : (s.setDsStat b w).ebox = s.ebox := rfl
@[simp] theorem State.setDsStat_itb (b : Word) (w : Bool) : (s.setDsStat b w).itb = s.itb := rfl
@[simp] theorem State.setDsStat_dtb (b : Word) (w : Bool) : (s.setDsStat b w).dtb = s.dtb := rfl
@[simp] theorem State.setDsStat_icache (b : Word) (w : Bool) : (s.setDsStat b w).icache = s.icache := rfl
@[simp] theorem State.setDsStat_timerCount (b : Word) (w : Bool) : (s.setDsStat b w).timerCount = s.timerCount := rfl
@[simp] theorem State.setDsStat_hserrTime (b : Word) (w : Bool) : (s.setDsStat b w).hserrTime = s.hserrTime := rfl
@[simp] theorem State.setDsStat_mergeWait (b : Word) (w : Bool) : (s.setDsStat b w).mergeWait = s.mergeWait := rfl
@[simp] theorem State.setDsStat_sleepBreak (b : Word) (w : Bool) : (s.setDsStat b w).sleepBreak = s.sleepBreak := rfl
@[simp] theorem State.setDsStat_ior (b : Word) (w : Bool) : (s.setDsStat b w).ior = s.ior := rfl
@[simp] theorem State.setDsStat_plat (b : Word) (w : Bool) : (s.setDsStat b w).plat = s.plat := rfl
@[simp] theorem State.setDsStat_draws (b : Word) (w : Bool) : (s.setDsStat b w).draws = s.draws := rfl
@[simp] theorem State.setDsStat_inputs (b : Word) (w : Bool) : (s.setDsStat b w).inputs = s.inputs := rfl
@[simp] theorem State.setDsStat_outputs (b : Word) (w : Bool) : (s.setDsStat b w).outputs = s.outputs := rfl
@[simp] theorem State.setDsStat_ir (b : Word) (w : Bool) : (s.setDsStat b w).ir = s.ir := rfl
@[simp] theorem State.setDsStat_pair (b : Word) (w : Bool) : (s.setDsStat b w).pair = s.pair := rfl
@[simp] theorem State.setDsStat_lastExc (b : Word) (w : Bool) : (s.setDsStat b w).lastExc = s.lastExc := rfl
@[simp] theorem State.setDsStat_codeHist (b : Word) (w : Bool) : (s.setDsStat b w).codeHist = s.codeHist := rfl
@[simp] theorem State.setDsStat_ncRecent (b : Word) (w : Bool) : (s.setDsStat b w).ncRecent = s.ncRecent := rfl
@[simp] theorem State.setDsStat_early (b : Word) (w : Bool) : (s.setDsStat b w).early = s.early := rfl
@[simp] theorem State.setDsStat_earlyBroken (b : Word) (w : Bool) : (s.setDsStat b w).earlyBroken = s.earlyBroken := rfl
@[simp] theorem State.setDsStat_unflushed (b : Word) (w : Bool) : (s.setDsStat b w).unflushed = s.unflushed := rfl
@[simp] theorem State.setDsStat_dcDirty (b : Word) (w : Bool) : (s.setDsStat b w).dcDirty = s.dcDirty := rfl
@[simp] theorem State.setDsStat_disconnected (b : Word) (w : Bool) : (s.setDsStat b w).disconnected = s.disconnected := rfl
@[simp] theorem State.setDsStat_kinds (b : Word) (w : Bool) : (s.setDsStat b w).kinds = s.kinds := rfl
@[simp] theorem State.setDsStat_idaMatchWriter (b : Word) (w : Bool) :
    (s.setDsStat b w).idaMatchWriter = s.idaMatchWriter := rfl
@[simp] theorem State.setDsStat_idaMaskWriter (b : Word) (w : Bool) :
    (s.setDsStat b w).idaMaskWriter = s.idaMaskWriter := rfl
@[simp] theorem State.setDsStat_retJump (b : Word) (w : Bool) : (s.setDsStat b w).retJump = s.retJump := rfl
@[simp] theorem State.setDsStat_timerWild (b : Word) (w : Bool) : (s.setDsStat b w).timerWild = s.timerWild := rfl
@[simp] theorem State.setDsStat_lateErrors (b : Word) (w : Bool) : (s.setDsStat b w).lateErrors = s.lateErrors := rfl
@[simp] theorem State.setDsStat_dcErrors (b : Word) (w : Bool) : (s.setDsStat b w).dcErrors = s.dcErrors := rfl
@[simp] theorem State.setDsStat_armed (b : Word) (w : Bool) : (s.setDsStat b w).armed = s.armed := rfl
@[simp] theorem State.setDsStat_armedFetch (b : Word) (w : Bool) : (s.setDsStat b w).armedFetch = s.armedFetch := rfl

/-! `setDva` -/

@[simp] theorem State.setDva_pc (v : Word) : (s.setDva v).pc = s.pc := rfl
@[simp] theorem State.setDva_gpr (v : Word) : (s.setDva v).gpr = s.gpr := rfl
@[simp] theorem State.setDva_sr (v : Word) : (s.setDva v).sr = s.sr := rfl
@[simp] theorem State.setDva_vr (v : Word) : (s.setDva v).vr = s.vr := rfl
@[simp] theorem State.setDva_fpcr (v : Word) : (s.setDva v).fpcr = s.fpcr := rfl
@[simp] theorem State.setDva_lock (v : Word) : (s.setDva v).lock = s.lock := rfl
@[simp] theorem State.setDva_coreState (v : Word) : (s.setDva v).coreState = s.coreState := rfl
@[simp] theorem State.setDva_mem (v : Word) : (s.setDva v).mem = s.mem := rfl
@[simp] theorem State.setDva_ibox (v : Word) : (s.setDva v).ibox = s.ibox := rfl
@[simp] theorem State.setDva_dbox (v : Word) : (s.setDva v).dbox = { s.dbox with dva := v } := rfl
@[simp] theorem State.setDva_sbox (v : Word) : (s.setDva v).sbox = s.sbox := rfl
@[simp] theorem State.setDva_ebox (v : Word) : (s.setDva v).ebox = s.ebox := rfl
@[simp] theorem State.setDva_itb (v : Word) : (s.setDva v).itb = s.itb := rfl
@[simp] theorem State.setDva_dtb (v : Word) : (s.setDva v).dtb = s.dtb := rfl
@[simp] theorem State.setDva_icache (v : Word) : (s.setDva v).icache = s.icache := rfl
@[simp] theorem State.setDva_timerCount (v : Word) : (s.setDva v).timerCount = s.timerCount := rfl
@[simp] theorem State.setDva_hserrTime (v : Word) : (s.setDva v).hserrTime = s.hserrTime := rfl
@[simp] theorem State.setDva_mergeWait (v : Word) : (s.setDva v).mergeWait = s.mergeWait := rfl
@[simp] theorem State.setDva_sleepBreak (v : Word) : (s.setDva v).sleepBreak = s.sleepBreak := rfl
@[simp] theorem State.setDva_ior (v : Word) : (s.setDva v).ior = s.ior := rfl
@[simp] theorem State.setDva_plat (v : Word) : (s.setDva v).plat = s.plat := rfl
@[simp] theorem State.setDva_draws (v : Word) : (s.setDva v).draws = s.draws := rfl
@[simp] theorem State.setDva_inputs (v : Word) : (s.setDva v).inputs = s.inputs := rfl
@[simp] theorem State.setDva_outputs (v : Word) : (s.setDva v).outputs = s.outputs := rfl
@[simp] theorem State.setDva_ir (v : Word) : (s.setDva v).ir = s.ir := rfl
@[simp] theorem State.setDva_pair (v : Word) : (s.setDva v).pair = s.pair := rfl
@[simp] theorem State.setDva_lastExc (v : Word) : (s.setDva v).lastExc = s.lastExc := rfl
@[simp] theorem State.setDva_codeHist (v : Word) : (s.setDva v).codeHist = s.codeHist := rfl
@[simp] theorem State.setDva_ncRecent (v : Word) : (s.setDva v).ncRecent = s.ncRecent := rfl
@[simp] theorem State.setDva_early (v : Word) : (s.setDva v).early = s.early := rfl
@[simp] theorem State.setDva_earlyBroken (v : Word) : (s.setDva v).earlyBroken = s.earlyBroken := rfl
@[simp] theorem State.setDva_unflushed (v : Word) : (s.setDva v).unflushed = s.unflushed := rfl
@[simp] theorem State.setDva_dcDirty (v : Word) : (s.setDva v).dcDirty = s.dcDirty := rfl
@[simp] theorem State.setDva_disconnected (v : Word) : (s.setDva v).disconnected = s.disconnected := rfl
@[simp] theorem State.setDva_kinds (v : Word) : (s.setDva v).kinds = s.kinds := rfl
@[simp] theorem State.setDva_idaMatchWriter (v : Word) : (s.setDva v).idaMatchWriter = s.idaMatchWriter := rfl
@[simp] theorem State.setDva_idaMaskWriter (v : Word) : (s.setDva v).idaMaskWriter = s.idaMaskWriter := rfl
@[simp] theorem State.setDva_retJump (v : Word) : (s.setDva v).retJump = s.retJump := rfl
@[simp] theorem State.setDva_timerWild (v : Word) : (s.setDva v).timerWild = s.timerWild := rfl
@[simp] theorem State.setDva_lateErrors (v : Word) : (s.setDva v).lateErrors = s.lateErrors := rfl
@[simp] theorem State.setDva_dcErrors (v : Word) : (s.setDva v).dcErrors = s.dcErrors := rfl
@[simp] theorem State.setDva_armed (v : Word) : (s.setDva v).armed = s.armed := rfl
@[simp] theorem State.setDva_armedFetch (v : Word) : (s.setDva v).armedFetch = s.armedFetch := rfl

/-! `breakLock` -/

@[simp] theorem State.breakLock_pc : (s.breakLock).pc = s.pc := rfl
@[simp] theorem State.breakLock_gpr : (s.breakLock).gpr = s.gpr := rfl
@[simp] theorem State.breakLock_sr : (s.breakLock).sr = s.sr := rfl
@[simp] theorem State.breakLock_vr : (s.breakLock).vr = s.vr := rfl
@[simp] theorem State.breakLock_fpcr : (s.breakLock).fpcr = s.fpcr := rfl
@[simp] theorem State.breakLock_lock : (s.breakLock).lock = { s.lock with valid := false } := rfl
@[simp] theorem State.breakLock_coreState : (s.breakLock).coreState = s.coreState := rfl
@[simp] theorem State.breakLock_mem : (s.breakLock).mem = s.mem := rfl
@[simp] theorem State.breakLock_ibox : (s.breakLock).ibox = s.ibox := rfl
@[simp] theorem State.breakLock_dbox : (s.breakLock).dbox = s.dbox := rfl
@[simp] theorem State.breakLock_sbox : (s.breakLock).sbox = s.sbox := rfl
@[simp] theorem State.breakLock_ebox : (s.breakLock).ebox = s.ebox := rfl
@[simp] theorem State.breakLock_itb : (s.breakLock).itb = s.itb := rfl
@[simp] theorem State.breakLock_dtb : (s.breakLock).dtb = s.dtb := rfl
@[simp] theorem State.breakLock_icache : (s.breakLock).icache = s.icache := rfl
@[simp] theorem State.breakLock_timerCount : (s.breakLock).timerCount = s.timerCount := rfl
@[simp] theorem State.breakLock_hserrTime : (s.breakLock).hserrTime = s.hserrTime := rfl
@[simp] theorem State.breakLock_mergeWait : (s.breakLock).mergeWait = s.mergeWait := rfl
@[simp] theorem State.breakLock_sleepBreak : (s.breakLock).sleepBreak = s.sleepBreak := rfl
@[simp] theorem State.breakLock_ior : (s.breakLock).ior = s.ior := rfl
@[simp] theorem State.breakLock_plat : (s.breakLock).plat = s.plat := rfl
@[simp] theorem State.breakLock_draws : (s.breakLock).draws = s.draws := rfl
@[simp] theorem State.breakLock_inputs : (s.breakLock).inputs = s.inputs := rfl
@[simp] theorem State.breakLock_outputs : (s.breakLock).outputs = s.outputs := rfl
@[simp] theorem State.breakLock_ir : (s.breakLock).ir = s.ir := rfl
@[simp] theorem State.breakLock_pair : (s.breakLock).pair = s.pair := rfl
@[simp] theorem State.breakLock_lastExc : (s.breakLock).lastExc = s.lastExc := rfl
@[simp] theorem State.breakLock_codeHist : (s.breakLock).codeHist = s.codeHist := rfl
@[simp] theorem State.breakLock_ncRecent : (s.breakLock).ncRecent = s.ncRecent := rfl
@[simp] theorem State.breakLock_early : (s.breakLock).early = s.early := rfl
@[simp] theorem State.breakLock_earlyBroken : (s.breakLock).earlyBroken = s.earlyBroken := rfl
@[simp] theorem State.breakLock_unflushed : (s.breakLock).unflushed = s.unflushed := rfl
@[simp] theorem State.breakLock_dcDirty : (s.breakLock).dcDirty = s.dcDirty := rfl
@[simp] theorem State.breakLock_disconnected : (s.breakLock).disconnected = s.disconnected := rfl
@[simp] theorem State.breakLock_kinds : (s.breakLock).kinds = s.kinds := rfl
@[simp] theorem State.breakLock_idaMatchWriter : (s.breakLock).idaMatchWriter = s.idaMatchWriter := rfl
@[simp] theorem State.breakLock_idaMaskWriter : (s.breakLock).idaMaskWriter = s.idaMaskWriter := rfl
@[simp] theorem State.breakLock_retJump : (s.breakLock).retJump = s.retJump := rfl
@[simp] theorem State.breakLock_timerWild : (s.breakLock).timerWild = s.timerWild := rfl
@[simp] theorem State.breakLock_lateErrors : (s.breakLock).lateErrors = s.lateErrors := rfl
@[simp] theorem State.breakLock_dcErrors : (s.breakLock).dcErrors = s.dcErrors := rfl
@[simp] theorem State.breakLock_armed : (s.breakLock).armed = s.armed := rfl
@[simp] theorem State.breakLock_armedFetch : (s.breakLock).armedFetch = s.armedFetch := rfl

/-! `transferTo` -/

@[simp] theorem State.transferTo_pc (t : Word) : (s.transferTo t).pc = withMode t s.pc := rfl
@[simp] theorem State.transferTo_gpr (t : Word) : (s.transferTo t).gpr = s.gpr := rfl
@[simp] theorem State.transferTo_sr (t : Word) : (s.transferTo t).sr = s.sr := rfl
@[simp] theorem State.transferTo_vr (t : Word) : (s.transferTo t).vr = s.vr := rfl
@[simp] theorem State.transferTo_fpcr (t : Word) : (s.transferTo t).fpcr = s.fpcr := rfl
@[simp] theorem State.transferTo_lock (t : Word) : (s.transferTo t).lock = { s.lock with valid := false } := rfl
@[simp] theorem State.transferTo_coreState (t : Word) : (s.transferTo t).coreState = s.coreState := rfl
@[simp] theorem State.transferTo_mem (t : Word) : (s.transferTo t).mem = s.mem := rfl
@[simp] theorem State.transferTo_ibox (t : Word) : (s.transferTo t).ibox = s.ibox := rfl
@[simp] theorem State.transferTo_dbox (t : Word) : (s.transferTo t).dbox = s.dbox := rfl
@[simp] theorem State.transferTo_sbox (t : Word) : (s.transferTo t).sbox = s.sbox := rfl
@[simp] theorem State.transferTo_ebox (t : Word) : (s.transferTo t).ebox = s.ebox := rfl
@[simp] theorem State.transferTo_itb (t : Word) : (s.transferTo t).itb = s.itb := rfl
@[simp] theorem State.transferTo_dtb (t : Word) : (s.transferTo t).dtb = s.dtb := rfl
@[simp] theorem State.transferTo_icache (t : Word) : (s.transferTo t).icache = s.icache := rfl
@[simp] theorem State.transferTo_timerCount (t : Word) : (s.transferTo t).timerCount = s.timerCount := rfl
@[simp] theorem State.transferTo_hserrTime (t : Word) : (s.transferTo t).hserrTime = s.hserrTime := rfl
@[simp] theorem State.transferTo_mergeWait (t : Word) : (s.transferTo t).mergeWait = s.mergeWait := rfl
@[simp] theorem State.transferTo_sleepBreak (t : Word) : (s.transferTo t).sleepBreak = s.sleepBreak := rfl
@[simp] theorem State.transferTo_ior (t : Word) : (s.transferTo t).ior = s.ior := rfl
@[simp] theorem State.transferTo_plat (t : Word) : (s.transferTo t).plat = s.plat := rfl
@[simp] theorem State.transferTo_draws (t : Word) : (s.transferTo t).draws = s.draws := rfl
@[simp] theorem State.transferTo_inputs (t : Word) : (s.transferTo t).inputs = s.inputs := rfl
@[simp] theorem State.transferTo_outputs (t : Word) : (s.transferTo t).outputs = s.outputs := rfl
@[simp] theorem State.transferTo_ir (t : Word) : (s.transferTo t).ir = s.ir := rfl
@[simp] theorem State.transferTo_pair (t : Word) : (s.transferTo t).pair = s.pair := rfl
@[simp] theorem State.transferTo_lastExc (t : Word) : (s.transferTo t).lastExc = s.lastExc := rfl
@[simp] theorem State.transferTo_codeHist (t : Word) : (s.transferTo t).codeHist = s.codeHist := rfl
@[simp] theorem State.transferTo_ncRecent (t : Word) : (s.transferTo t).ncRecent = s.ncRecent := rfl
@[simp] theorem State.transferTo_early (t : Word) : (s.transferTo t).early = s.early := rfl
@[simp] theorem State.transferTo_earlyBroken (t : Word) : (s.transferTo t).earlyBroken = s.earlyBroken := rfl
@[simp] theorem State.transferTo_unflushed (t : Word) : (s.transferTo t).unflushed = s.unflushed := rfl
@[simp] theorem State.transferTo_dcDirty (t : Word) : (s.transferTo t).dcDirty = s.dcDirty := rfl
@[simp] theorem State.transferTo_disconnected (t : Word) : (s.transferTo t).disconnected = s.disconnected := rfl
@[simp] theorem State.transferTo_kinds (t : Word) : (s.transferTo t).kinds = s.kinds := rfl
@[simp] theorem State.transferTo_idaMatchWriter (t : Word) : (s.transferTo t).idaMatchWriter = s.idaMatchWriter := rfl
@[simp] theorem State.transferTo_idaMaskWriter (t : Word) : (s.transferTo t).idaMaskWriter = s.idaMaskWriter := rfl
@[simp] theorem State.transferTo_retJump (t : Word) : (s.transferTo t).retJump = s.retJump := rfl
@[simp] theorem State.transferTo_timerWild (t : Word) : (s.transferTo t).timerWild = s.timerWild := rfl
@[simp] theorem State.transferTo_lateErrors (t : Word) : (s.transferTo t).lateErrors = s.lateErrors := rfl
@[simp] theorem State.transferTo_dcErrors (t : Word) : (s.transferTo t).dcErrors = s.dcErrors := rfl
@[simp] theorem State.transferTo_armed (t : Word) : (s.transferTo t).armed = s.armed := rfl
@[simp] theorem State.transferTo_armedFetch (t : Word) : (s.transferTo t).armedFetch = s.armedFetch := rfl

/-! `fallThrough` -/

@[simp] theorem State.fallThrough_pc : (s.fallThrough).pc = s.pc + 4 := rfl
@[simp] theorem State.fallThrough_gpr : (s.fallThrough).gpr = s.gpr := rfl
@[simp] theorem State.fallThrough_sr : (s.fallThrough).sr = s.sr := rfl
@[simp] theorem State.fallThrough_vr : (s.fallThrough).vr = s.vr := rfl
@[simp] theorem State.fallThrough_fpcr : (s.fallThrough).fpcr = s.fpcr := rfl
@[simp] theorem State.fallThrough_lock : (s.fallThrough).lock = { s.lock with valid := false } := rfl
@[simp] theorem State.fallThrough_coreState : (s.fallThrough).coreState = s.coreState := rfl
@[simp] theorem State.fallThrough_mem : (s.fallThrough).mem = s.mem := rfl
@[simp] theorem State.fallThrough_ibox : (s.fallThrough).ibox = s.ibox := rfl
@[simp] theorem State.fallThrough_dbox : (s.fallThrough).dbox = s.dbox := rfl
@[simp] theorem State.fallThrough_sbox : (s.fallThrough).sbox = s.sbox := rfl
@[simp] theorem State.fallThrough_ebox : (s.fallThrough).ebox = s.ebox := rfl
@[simp] theorem State.fallThrough_itb : (s.fallThrough).itb = s.itb := rfl
@[simp] theorem State.fallThrough_dtb : (s.fallThrough).dtb = s.dtb := rfl
@[simp] theorem State.fallThrough_icache : (s.fallThrough).icache = s.icache := rfl
@[simp] theorem State.fallThrough_timerCount : (s.fallThrough).timerCount = s.timerCount := rfl
@[simp] theorem State.fallThrough_hserrTime : (s.fallThrough).hserrTime = s.hserrTime := rfl
@[simp] theorem State.fallThrough_mergeWait : (s.fallThrough).mergeWait = s.mergeWait := rfl
@[simp] theorem State.fallThrough_sleepBreak : (s.fallThrough).sleepBreak = s.sleepBreak := rfl
@[simp] theorem State.fallThrough_ior : (s.fallThrough).ior = s.ior := rfl
@[simp] theorem State.fallThrough_plat : (s.fallThrough).plat = s.plat := rfl
@[simp] theorem State.fallThrough_draws : (s.fallThrough).draws = s.draws := rfl
@[simp] theorem State.fallThrough_inputs : (s.fallThrough).inputs = s.inputs := rfl
@[simp] theorem State.fallThrough_outputs : (s.fallThrough).outputs = s.outputs := rfl
@[simp] theorem State.fallThrough_ir : (s.fallThrough).ir = s.ir := rfl
@[simp] theorem State.fallThrough_pair : (s.fallThrough).pair = s.pair := rfl
@[simp] theorem State.fallThrough_lastExc : (s.fallThrough).lastExc = s.lastExc := rfl
@[simp] theorem State.fallThrough_codeHist : (s.fallThrough).codeHist = s.codeHist := rfl
@[simp] theorem State.fallThrough_ncRecent : (s.fallThrough).ncRecent = s.ncRecent := rfl
@[simp] theorem State.fallThrough_early : (s.fallThrough).early = s.early := rfl
@[simp] theorem State.fallThrough_earlyBroken : (s.fallThrough).earlyBroken = s.earlyBroken := rfl
@[simp] theorem State.fallThrough_unflushed : (s.fallThrough).unflushed = s.unflushed := rfl
@[simp] theorem State.fallThrough_dcDirty : (s.fallThrough).dcDirty = s.dcDirty := rfl
@[simp] theorem State.fallThrough_disconnected : (s.fallThrough).disconnected = s.disconnected := rfl
@[simp] theorem State.fallThrough_kinds : (s.fallThrough).kinds = s.kinds := rfl
@[simp] theorem State.fallThrough_idaMatchWriter : (s.fallThrough).idaMatchWriter = s.idaMatchWriter := rfl
@[simp] theorem State.fallThrough_idaMaskWriter : (s.fallThrough).idaMaskWriter = s.idaMaskWriter := rfl
@[simp] theorem State.fallThrough_retJump : (s.fallThrough).retJump = s.retJump := rfl
@[simp] theorem State.fallThrough_timerWild : (s.fallThrough).timerWild = s.timerWild := rfl
@[simp] theorem State.fallThrough_lateErrors : (s.fallThrough).lateErrors = s.lateErrors := rfl
@[simp] theorem State.fallThrough_dcErrors : (s.fallThrough).dcErrors = s.dcErrors := rfl
@[simp] theorem State.fallThrough_armed : (s.fallThrough).armed = s.armed := rfl
@[simp] theorem State.fallThrough_armedFetch : (s.fallThrough).armedFetch = s.armedFetch := rfl

/-! `orFpcr` -/

@[simp] theorem State.orFpcr_pc (b : Word) : (s.orFpcr b).pc = s.pc := rfl
@[simp] theorem State.orFpcr_gpr (b : Word) : (s.orFpcr b).gpr = s.gpr := rfl
@[simp] theorem State.orFpcr_sr (b : Word) : (s.orFpcr b).sr = s.sr := rfl
@[simp] theorem State.orFpcr_vr (b : Word) : (s.orFpcr b).vr = s.vr := rfl
@[simp] theorem State.orFpcr_fpcr (b : Word) : (s.orFpcr b).fpcr = s.fpcr ||| b := rfl
@[simp] theorem State.orFpcr_lock (b : Word) : (s.orFpcr b).lock = s.lock := rfl
@[simp] theorem State.orFpcr_coreState (b : Word) : (s.orFpcr b).coreState = s.coreState := rfl
@[simp] theorem State.orFpcr_mem (b : Word) : (s.orFpcr b).mem = s.mem := rfl
@[simp] theorem State.orFpcr_ibox (b : Word) : (s.orFpcr b).ibox = s.ibox := rfl
@[simp] theorem State.orFpcr_dbox (b : Word) : (s.orFpcr b).dbox = s.dbox := rfl
@[simp] theorem State.orFpcr_sbox (b : Word) : (s.orFpcr b).sbox = s.sbox := rfl
@[simp] theorem State.orFpcr_ebox (b : Word) : (s.orFpcr b).ebox = s.ebox := rfl
@[simp] theorem State.orFpcr_itb (b : Word) : (s.orFpcr b).itb = s.itb := rfl
@[simp] theorem State.orFpcr_dtb (b : Word) : (s.orFpcr b).dtb = s.dtb := rfl
@[simp] theorem State.orFpcr_icache (b : Word) : (s.orFpcr b).icache = s.icache := rfl
@[simp] theorem State.orFpcr_timerCount (b : Word) : (s.orFpcr b).timerCount = s.timerCount := rfl
@[simp] theorem State.orFpcr_hserrTime (b : Word) : (s.orFpcr b).hserrTime = s.hserrTime := rfl
@[simp] theorem State.orFpcr_mergeWait (b : Word) : (s.orFpcr b).mergeWait = s.mergeWait := rfl
@[simp] theorem State.orFpcr_sleepBreak (b : Word) : (s.orFpcr b).sleepBreak = s.sleepBreak := rfl
@[simp] theorem State.orFpcr_ior (b : Word) : (s.orFpcr b).ior = s.ior := rfl
@[simp] theorem State.orFpcr_plat (b : Word) : (s.orFpcr b).plat = s.plat := rfl
@[simp] theorem State.orFpcr_draws (b : Word) : (s.orFpcr b).draws = s.draws := rfl
@[simp] theorem State.orFpcr_inputs (b : Word) : (s.orFpcr b).inputs = s.inputs := rfl
@[simp] theorem State.orFpcr_outputs (b : Word) : (s.orFpcr b).outputs = s.outputs := rfl
@[simp] theorem State.orFpcr_ir (b : Word) : (s.orFpcr b).ir = s.ir := rfl
@[simp] theorem State.orFpcr_pair (b : Word) : (s.orFpcr b).pair = s.pair := rfl
@[simp] theorem State.orFpcr_lastExc (b : Word) : (s.orFpcr b).lastExc = s.lastExc := rfl
@[simp] theorem State.orFpcr_codeHist (b : Word) : (s.orFpcr b).codeHist = s.codeHist := rfl
@[simp] theorem State.orFpcr_ncRecent (b : Word) : (s.orFpcr b).ncRecent = s.ncRecent := rfl
@[simp] theorem State.orFpcr_early (b : Word) : (s.orFpcr b).early = s.early := rfl
@[simp] theorem State.orFpcr_earlyBroken (b : Word) : (s.orFpcr b).earlyBroken = s.earlyBroken := rfl
@[simp] theorem State.orFpcr_unflushed (b : Word) : (s.orFpcr b).unflushed = s.unflushed := rfl
@[simp] theorem State.orFpcr_dcDirty (b : Word) : (s.orFpcr b).dcDirty = s.dcDirty := rfl
@[simp] theorem State.orFpcr_disconnected (b : Word) : (s.orFpcr b).disconnected = s.disconnected := rfl
@[simp] theorem State.orFpcr_kinds (b : Word) : (s.orFpcr b).kinds = s.kinds := rfl
@[simp] theorem State.orFpcr_idaMatchWriter (b : Word) : (s.orFpcr b).idaMatchWriter = s.idaMatchWriter := rfl
@[simp] theorem State.orFpcr_idaMaskWriter (b : Word) : (s.orFpcr b).idaMaskWriter = s.idaMaskWriter := rfl
@[simp] theorem State.orFpcr_retJump (b : Word) : (s.orFpcr b).retJump = s.retJump := rfl
@[simp] theorem State.orFpcr_timerWild (b : Word) : (s.orFpcr b).timerWild = s.timerWild := rfl
@[simp] theorem State.orFpcr_lateErrors (b : Word) : (s.orFpcr b).lateErrors = s.lateErrors := rfl
@[simp] theorem State.orFpcr_dcErrors (b : Word) : (s.orFpcr b).dcErrors = s.dcErrors := rfl
@[simp] theorem State.orFpcr_armed (b : Word) : (s.orFpcr b).armed = s.armed := rfl
@[simp] theorem State.orFpcr_armedFetch (b : Word) : (s.orFpcr b).armedFetch = s.armedFetch := rfl

/-! `setLock` -/

@[simp] theorem State.setLock_pc (a : PAddr) (n : Nat) : (s.setLock a n).pc = s.pc := rfl
@[simp] theorem State.setLock_gpr (a : PAddr) (n : Nat) : (s.setLock a n).gpr = s.gpr := rfl
@[simp] theorem State.setLock_sr (a : PAddr) (n : Nat) : (s.setLock a n).sr = s.sr := rfl
@[simp] theorem State.setLock_vr (a : PAddr) (n : Nat) : (s.setLock a n).vr = s.vr := rfl
@[simp] theorem State.setLock_fpcr (a : PAddr) (n : Nat) : (s.setLock a n).fpcr = s.fpcr := rfl
@[simp] theorem State.setLock_lock (a : PAddr) (n : Nat) :
    (s.setLock a n).lock = { s.lock with valid := true, addr := a, size := n, kept := true } := rfl
@[simp] theorem State.setLock_coreState (a : PAddr) (n : Nat) : (s.setLock a n).coreState = s.coreState := rfl
@[simp] theorem State.setLock_mem (a : PAddr) (n : Nat) : (s.setLock a n).mem = s.mem := rfl
@[simp] theorem State.setLock_ibox (a : PAddr) (n : Nat) : (s.setLock a n).ibox = s.ibox := rfl
@[simp] theorem State.setLock_dbox (a : PAddr) (n : Nat) : (s.setLock a n).dbox = s.dbox := rfl
@[simp] theorem State.setLock_sbox (a : PAddr) (n : Nat) : (s.setLock a n).sbox = s.sbox := rfl
@[simp] theorem State.setLock_ebox (a : PAddr) (n : Nat) : (s.setLock a n).ebox = s.ebox := rfl
@[simp] theorem State.setLock_itb (a : PAddr) (n : Nat) : (s.setLock a n).itb = s.itb := rfl
@[simp] theorem State.setLock_dtb (a : PAddr) (n : Nat) : (s.setLock a n).dtb = s.dtb := rfl
@[simp] theorem State.setLock_icache (a : PAddr) (n : Nat) : (s.setLock a n).icache = s.icache := rfl
@[simp] theorem State.setLock_timerCount (a : PAddr) (n : Nat) : (s.setLock a n).timerCount = s.timerCount := rfl
@[simp] theorem State.setLock_hserrTime (a : PAddr) (n : Nat) : (s.setLock a n).hserrTime = s.hserrTime := rfl
@[simp] theorem State.setLock_mergeWait (a : PAddr) (n : Nat) : (s.setLock a n).mergeWait = s.mergeWait := rfl
@[simp] theorem State.setLock_sleepBreak (a : PAddr) (n : Nat) : (s.setLock a n).sleepBreak = s.sleepBreak := rfl
@[simp] theorem State.setLock_ior (a : PAddr) (n : Nat) : (s.setLock a n).ior = s.ior := rfl
@[simp] theorem State.setLock_plat (a : PAddr) (n : Nat) : (s.setLock a n).plat = s.plat := rfl
@[simp] theorem State.setLock_draws (a : PAddr) (n : Nat) : (s.setLock a n).draws = s.draws := rfl
@[simp] theorem State.setLock_inputs (a : PAddr) (n : Nat) : (s.setLock a n).inputs = s.inputs := rfl
@[simp] theorem State.setLock_outputs (a : PAddr) (n : Nat) : (s.setLock a n).outputs = s.outputs := rfl
@[simp] theorem State.setLock_ir (a : PAddr) (n : Nat) : (s.setLock a n).ir = s.ir := rfl
@[simp] theorem State.setLock_pair (a : PAddr) (n : Nat) : (s.setLock a n).pair = s.pair := rfl
@[simp] theorem State.setLock_lastExc (a : PAddr) (n : Nat) : (s.setLock a n).lastExc = s.lastExc := rfl
@[simp] theorem State.setLock_codeHist (a : PAddr) (n : Nat) : (s.setLock a n).codeHist = s.codeHist := rfl
@[simp] theorem State.setLock_ncRecent (a : PAddr) (n : Nat) : (s.setLock a n).ncRecent = s.ncRecent := rfl
@[simp] theorem State.setLock_early (a : PAddr) (n : Nat) : (s.setLock a n).early = s.early := rfl
@[simp] theorem State.setLock_earlyBroken (a : PAddr) (n : Nat) : (s.setLock a n).earlyBroken = s.earlyBroken := rfl
@[simp] theorem State.setLock_unflushed (a : PAddr) (n : Nat) : (s.setLock a n).unflushed = s.unflushed := rfl
@[simp] theorem State.setLock_dcDirty (a : PAddr) (n : Nat) : (s.setLock a n).dcDirty = s.dcDirty := rfl
@[simp] theorem State.setLock_disconnected (a : PAddr) (n : Nat) : (s.setLock a n).disconnected = s.disconnected := rfl
@[simp] theorem State.setLock_kinds (a : PAddr) (n : Nat) : (s.setLock a n).kinds = s.kinds := rfl
@[simp] theorem State.setLock_idaMatchWriter (a : PAddr) (n : Nat) :
    (s.setLock a n).idaMatchWriter = s.idaMatchWriter := rfl
@[simp] theorem State.setLock_idaMaskWriter (a : PAddr) (n : Nat) :
    (s.setLock a n).idaMaskWriter = s.idaMaskWriter := rfl
@[simp] theorem State.setLock_retJump (a : PAddr) (n : Nat) : (s.setLock a n).retJump = s.retJump := rfl
@[simp] theorem State.setLock_timerWild (a : PAddr) (n : Nat) : (s.setLock a n).timerWild = s.timerWild := rfl
@[simp] theorem State.setLock_lateErrors (a : PAddr) (n : Nat) : (s.setLock a n).lateErrors = s.lateErrors := rfl
@[simp] theorem State.setLock_dcErrors (a : PAddr) (n : Nat) : (s.setLock a n).dcErrors = s.dcErrors := rfl
@[simp] theorem State.setLock_armed (a : PAddr) (n : Nat) : (s.setLock a n).armed = s.armed := rfl
@[simp] theorem State.setLock_armedFetch (a : PAddr) (n : Nat) : (s.setLock a n).armedFetch = s.armedFetch := rfl

/-! `endLock` -/

@[simp] theorem State.endLock_pc (b : Bool) : (s.endLock b).pc = s.pc := rfl
@[simp] theorem State.endLock_gpr (b : Bool) : (s.endLock b).gpr = s.gpr := rfl
@[simp] theorem State.endLock_sr (b : Bool) : (s.endLock b).sr = s.sr := rfl
@[simp] theorem State.endLock_vr (b : Bool) : (s.endLock b).vr = s.vr := rfl
@[simp] theorem State.endLock_fpcr (b : Bool) : (s.endLock b).fpcr = s.fpcr := rfl
@[simp] theorem State.endLock_lock (b : Bool) :
    (s.endLock b).lock = { s.lock with valid := false, flag := false, success := b } := rfl
@[simp] theorem State.endLock_coreState (b : Bool) : (s.endLock b).coreState = s.coreState := rfl
@[simp] theorem State.endLock_mem (b : Bool) : (s.endLock b).mem = s.mem := rfl
@[simp] theorem State.endLock_ibox (b : Bool) : (s.endLock b).ibox = s.ibox := rfl
@[simp] theorem State.endLock_dbox (b : Bool) : (s.endLock b).dbox = s.dbox := rfl
@[simp] theorem State.endLock_sbox (b : Bool) : (s.endLock b).sbox = s.sbox := rfl
@[simp] theorem State.endLock_ebox (b : Bool) : (s.endLock b).ebox = s.ebox := rfl
@[simp] theorem State.endLock_itb (b : Bool) : (s.endLock b).itb = s.itb := rfl
@[simp] theorem State.endLock_dtb (b : Bool) : (s.endLock b).dtb = s.dtb := rfl
@[simp] theorem State.endLock_icache (b : Bool) : (s.endLock b).icache = s.icache := rfl
@[simp] theorem State.endLock_timerCount (b : Bool) : (s.endLock b).timerCount = s.timerCount := rfl
@[simp] theorem State.endLock_hserrTime (b : Bool) : (s.endLock b).hserrTime = s.hserrTime := rfl
@[simp] theorem State.endLock_mergeWait (b : Bool) : (s.endLock b).mergeWait = s.mergeWait := rfl
@[simp] theorem State.endLock_sleepBreak (b : Bool) : (s.endLock b).sleepBreak = s.sleepBreak := rfl
@[simp] theorem State.endLock_ior (b : Bool) : (s.endLock b).ior = s.ior := rfl
@[simp] theorem State.endLock_plat (b : Bool) : (s.endLock b).plat = s.plat := rfl
@[simp] theorem State.endLock_draws (b : Bool) : (s.endLock b).draws = s.draws := rfl
@[simp] theorem State.endLock_inputs (b : Bool) : (s.endLock b).inputs = s.inputs := rfl
@[simp] theorem State.endLock_outputs (b : Bool) : (s.endLock b).outputs = s.outputs := rfl
@[simp] theorem State.endLock_ir (b : Bool) : (s.endLock b).ir = s.ir := rfl
@[simp] theorem State.endLock_pair (b : Bool) : (s.endLock b).pair = s.pair := rfl
@[simp] theorem State.endLock_lastExc (b : Bool) : (s.endLock b).lastExc = s.lastExc := rfl
@[simp] theorem State.endLock_codeHist (b : Bool) : (s.endLock b).codeHist = s.codeHist := rfl
@[simp] theorem State.endLock_ncRecent (b : Bool) : (s.endLock b).ncRecent = s.ncRecent := rfl
@[simp] theorem State.endLock_early (b : Bool) : (s.endLock b).early = s.early := rfl
@[simp] theorem State.endLock_earlyBroken (b : Bool) : (s.endLock b).earlyBroken = s.earlyBroken := rfl
@[simp] theorem State.endLock_unflushed (b : Bool) : (s.endLock b).unflushed = s.unflushed := rfl
@[simp] theorem State.endLock_dcDirty (b : Bool) : (s.endLock b).dcDirty = s.dcDirty := rfl
@[simp] theorem State.endLock_disconnected (b : Bool) : (s.endLock b).disconnected = s.disconnected := rfl
@[simp] theorem State.endLock_kinds (b : Bool) : (s.endLock b).kinds = s.kinds := rfl
@[simp] theorem State.endLock_idaMatchWriter (b : Bool) : (s.endLock b).idaMatchWriter = s.idaMatchWriter := rfl
@[simp] theorem State.endLock_idaMaskWriter (b : Bool) : (s.endLock b).idaMaskWriter = s.idaMaskWriter := rfl
@[simp] theorem State.endLock_retJump (b : Bool) : (s.endLock b).retJump = s.retJump := rfl
@[simp] theorem State.endLock_timerWild (b : Bool) : (s.endLock b).timerWild = s.timerWild := rfl
@[simp] theorem State.endLock_lateErrors (b : Bool) : (s.endLock b).lateErrors = s.lateErrors := rfl
@[simp] theorem State.endLock_dcErrors (b : Bool) : (s.endLock b).dcErrors = s.dcErrors := rfl
@[simp] theorem State.endLock_armed (b : Bool) : (s.endLock b).armed = s.armed := rfl
@[simp] theorem State.endLock_armedFetch (b : Bool) : (s.endLock b).armedFetch = s.armedFetch := rfl

/-! `fetchBarrier` -/

@[simp] theorem State.fetchBarrier_pc : (s.fetchBarrier).pc = s.pc := rfl
@[simp] theorem State.fetchBarrier_gpr : (s.fetchBarrier).gpr = s.gpr := rfl
@[simp] theorem State.fetchBarrier_sr : (s.fetchBarrier).sr = s.sr := rfl
@[simp] theorem State.fetchBarrier_vr : (s.fetchBarrier).vr = s.vr := rfl
@[simp] theorem State.fetchBarrier_fpcr : (s.fetchBarrier).fpcr = s.fpcr := rfl
@[simp] theorem State.fetchBarrier_lock : (s.fetchBarrier).lock = s.lock := rfl
@[simp] theorem State.fetchBarrier_coreState : (s.fetchBarrier).coreState = s.coreState := rfl
@[simp] theorem State.fetchBarrier_mem : (s.fetchBarrier).mem = s.mem := rfl
@[simp] theorem State.fetchBarrier_ibox : (s.fetchBarrier).ibox = s.ibox := rfl
@[simp] theorem State.fetchBarrier_dbox : (s.fetchBarrier).dbox = s.dbox := rfl
@[simp] theorem State.fetchBarrier_sbox : (s.fetchBarrier).sbox = s.sbox := rfl
@[simp] theorem State.fetchBarrier_ebox : (s.fetchBarrier).ebox = s.ebox := rfl
@[simp] theorem State.fetchBarrier_itb : (s.fetchBarrier).itb = s.itb := rfl
@[simp] theorem State.fetchBarrier_dtb : (s.fetchBarrier).dtb = s.dtb := rfl
@[simp] theorem State.fetchBarrier_icache : (s.fetchBarrier).icache = s.icache := rfl
@[simp] theorem State.fetchBarrier_timerCount : (s.fetchBarrier).timerCount = s.timerCount := rfl
@[simp] theorem State.fetchBarrier_hserrTime : (s.fetchBarrier).hserrTime = s.hserrTime := rfl
@[simp] theorem State.fetchBarrier_mergeWait : (s.fetchBarrier).mergeWait = s.mergeWait := rfl
@[simp] theorem State.fetchBarrier_sleepBreak : (s.fetchBarrier).sleepBreak = s.sleepBreak := rfl
@[simp] theorem State.fetchBarrier_ior : (s.fetchBarrier).ior = s.ior := rfl
@[simp] theorem State.fetchBarrier_plat : (s.fetchBarrier).plat = s.plat := rfl
@[simp] theorem State.fetchBarrier_draws : (s.fetchBarrier).draws = s.draws := rfl
@[simp] theorem State.fetchBarrier_inputs : (s.fetchBarrier).inputs = s.inputs := rfl
@[simp] theorem State.fetchBarrier_outputs : (s.fetchBarrier).outputs = s.outputs := rfl
@[simp] theorem State.fetchBarrier_ir : (s.fetchBarrier).ir = s.ir := rfl
@[simp] theorem State.fetchBarrier_pair : (s.fetchBarrier).pair = s.pair := rfl
@[simp] theorem State.fetchBarrier_lastExc : (s.fetchBarrier).lastExc = s.lastExc := rfl
@[simp] theorem State.fetchBarrier_codeHist :
    (s.fetchBarrier).codeHist = s.codeHist.filter fun o => o.stage != .flushed := rfl
@[simp] theorem State.fetchBarrier_ncRecent : (s.fetchBarrier).ncRecent = s.ncRecent := rfl
@[simp] theorem State.fetchBarrier_early : (s.fetchBarrier).early = s.early := rfl
@[simp] theorem State.fetchBarrier_earlyBroken : (s.fetchBarrier).earlyBroken = s.earlyBroken := rfl
@[simp] theorem State.fetchBarrier_unflushed : (s.fetchBarrier).unflushed = s.unflushed := rfl
@[simp] theorem State.fetchBarrier_dcDirty : (s.fetchBarrier).dcDirty = s.dcDirty := rfl
@[simp] theorem State.fetchBarrier_disconnected : (s.fetchBarrier).disconnected = s.disconnected := rfl
@[simp] theorem State.fetchBarrier_kinds : (s.fetchBarrier).kinds = s.kinds := rfl
@[simp] theorem State.fetchBarrier_idaMatchWriter : (s.fetchBarrier).idaMatchWriter = s.idaMatchWriter := rfl
@[simp] theorem State.fetchBarrier_idaMaskWriter : (s.fetchBarrier).idaMaskWriter = s.idaMaskWriter := rfl
@[simp] theorem State.fetchBarrier_retJump : (s.fetchBarrier).retJump = s.retJump := rfl
@[simp] theorem State.fetchBarrier_timerWild : (s.fetchBarrier).timerWild = s.timerWild := rfl
@[simp] theorem State.fetchBarrier_lateErrors : (s.fetchBarrier).lateErrors = s.lateErrors := rfl
@[simp] theorem State.fetchBarrier_dcErrors : (s.fetchBarrier).dcErrors = s.dcErrors := rfl
@[simp] theorem State.fetchBarrier_armed : (s.fetchBarrier).armed = s.armed := rfl
@[simp] theorem State.fetchBarrier_armedFetch : (s.fetchBarrier).armedFetch = s.armedFetch := rfl

/-! `memoryBarrier` -/

@[simp] theorem State.memoryBarrier_pc : (s.memoryBarrier).pc = s.pc := rfl
@[simp] theorem State.memoryBarrier_gpr : (s.memoryBarrier).gpr = s.gpr := rfl
@[simp] theorem State.memoryBarrier_sr : (s.memoryBarrier).sr = s.sr := rfl
@[simp] theorem State.memoryBarrier_vr : (s.memoryBarrier).vr = s.vr := rfl
@[simp] theorem State.memoryBarrier_fpcr : (s.memoryBarrier).fpcr = s.fpcr := rfl
@[simp] theorem State.memoryBarrier_lock : (s.memoryBarrier).lock = s.lock := rfl
@[simp] theorem State.memoryBarrier_coreState : (s.memoryBarrier).coreState = s.coreState := rfl
@[simp] theorem State.memoryBarrier_mem : (s.memoryBarrier).mem = s.mem := rfl
@[simp] theorem State.memoryBarrier_ibox : (s.memoryBarrier).ibox = s.ibox := rfl
@[simp] theorem State.memoryBarrier_dbox : (s.memoryBarrier).dbox = s.dbox := rfl
@[simp] theorem State.memoryBarrier_sbox : (s.memoryBarrier).sbox = s.sbox := rfl
@[simp] theorem State.memoryBarrier_ebox : (s.memoryBarrier).ebox = s.ebox := rfl
@[simp] theorem State.memoryBarrier_itb : (s.memoryBarrier).itb = s.itb := rfl
@[simp] theorem State.memoryBarrier_dtb : (s.memoryBarrier).dtb = s.dtb := rfl
@[simp] theorem State.memoryBarrier_icache : (s.memoryBarrier).icache = s.icacheAfterMemb := rfl
@[simp] theorem State.memoryBarrier_timerCount : (s.memoryBarrier).timerCount = s.timerCount := rfl
@[simp] theorem State.memoryBarrier_hserrTime : (s.memoryBarrier).hserrTime = s.hserrTime := rfl
@[simp] theorem State.memoryBarrier_mergeWait : (s.memoryBarrier).mergeWait = none := rfl
@[simp] theorem State.memoryBarrier_sleepBreak : (s.memoryBarrier).sleepBreak = s.sleepBreak := rfl
@[simp] theorem State.memoryBarrier_ior : (s.memoryBarrier).ior = s.ior := rfl
@[simp] theorem State.memoryBarrier_plat : (s.memoryBarrier).plat = s.plat := rfl
@[simp] theorem State.memoryBarrier_draws : (s.memoryBarrier).draws = s.draws := rfl
@[simp] theorem State.memoryBarrier_inputs : (s.memoryBarrier).inputs = s.inputs := rfl
@[simp] theorem State.memoryBarrier_outputs : (s.memoryBarrier).outputs = s.outputs := rfl
@[simp] theorem State.memoryBarrier_ir : (s.memoryBarrier).ir = s.ir := rfl
@[simp] theorem State.memoryBarrier_pair : (s.memoryBarrier).pair = s.pair := rfl
@[simp] theorem State.memoryBarrier_lastExc : (s.memoryBarrier).lastExc = s.lastExc := rfl
@[simp] theorem State.memoryBarrier_codeHist :
    (s.memoryBarrier).codeHist = s.codeHist.map (OldStore.afterMemb (s.sbox.scCtl.getLsbD 20)) := rfl
@[simp] theorem State.memoryBarrier_ncRecent : (s.memoryBarrier).ncRecent = [] := rfl
@[simp] theorem State.memoryBarrier_early : (s.memoryBarrier).early = s.early := rfl
@[simp] theorem State.memoryBarrier_earlyBroken :
    (s.memoryBarrier).earlyBroken = (s.earlyBroken || !s.early.isEmpty) := rfl
@[simp] theorem State.memoryBarrier_unflushed : (s.memoryBarrier).unflushed = s.unflushed := rfl
@[simp] theorem State.memoryBarrier_dcDirty : (s.memoryBarrier).dcDirty = s.dcDirty := rfl
@[simp] theorem State.memoryBarrier_disconnected : (s.memoryBarrier).disconnected = s.disconnected := rfl
@[simp] theorem State.memoryBarrier_kinds : (s.memoryBarrier).kinds = s.kinds := rfl
@[simp] theorem State.memoryBarrier_idaMatchWriter : (s.memoryBarrier).idaMatchWriter = s.idaMatchWriter := rfl
@[simp] theorem State.memoryBarrier_idaMaskWriter : (s.memoryBarrier).idaMaskWriter = s.idaMaskWriter := rfl
@[simp] theorem State.memoryBarrier_retJump : (s.memoryBarrier).retJump = s.retJump := rfl
@[simp] theorem State.memoryBarrier_timerWild : (s.memoryBarrier).timerWild = s.timerWild := rfl
@[simp] theorem State.memoryBarrier_lateErrors : (s.memoryBarrier).lateErrors = s.lateErrors := rfl
@[simp] theorem State.memoryBarrier_dcErrors : (s.memoryBarrier).dcErrors = s.dcErrors := rfl
@[simp] theorem State.memoryBarrier_armed : (s.memoryBarrier).armed = s.armed := rfl
@[simp] theorem State.memoryBarrier_armedFetch : (s.memoryBarrier).armedFetch = s.armedFetch := rfl

/-! `closeMerge` -/

@[simp] theorem State.closeMerge_pc : (s.closeMerge).pc = s.pc := rfl
@[simp] theorem State.closeMerge_gpr : (s.closeMerge).gpr = s.gpr := rfl
@[simp] theorem State.closeMerge_sr : (s.closeMerge).sr = s.sr := rfl
@[simp] theorem State.closeMerge_vr : (s.closeMerge).vr = s.vr := rfl
@[simp] theorem State.closeMerge_fpcr : (s.closeMerge).fpcr = s.fpcr := rfl
@[simp] theorem State.closeMerge_lock : (s.closeMerge).lock = s.lock := rfl
@[simp] theorem State.closeMerge_coreState : (s.closeMerge).coreState = s.coreState := rfl
@[simp] theorem State.closeMerge_mem : (s.closeMerge).mem = s.mem := rfl
@[simp] theorem State.closeMerge_ibox : (s.closeMerge).ibox = s.ibox := rfl
@[simp] theorem State.closeMerge_dbox : (s.closeMerge).dbox = s.dbox := rfl
@[simp] theorem State.closeMerge_sbox : (s.closeMerge).sbox = s.sbox := rfl
@[simp] theorem State.closeMerge_ebox : (s.closeMerge).ebox = s.ebox := rfl
@[simp] theorem State.closeMerge_itb : (s.closeMerge).itb = s.itb := rfl
@[simp] theorem State.closeMerge_dtb : (s.closeMerge).dtb = s.dtb := rfl
@[simp] theorem State.closeMerge_icache : (s.closeMerge).icache = s.icache := rfl
@[simp] theorem State.closeMerge_timerCount : (s.closeMerge).timerCount = s.timerCount := rfl
@[simp] theorem State.closeMerge_hserrTime : (s.closeMerge).hserrTime = s.hserrTime := rfl
@[simp] theorem State.closeMerge_mergeWait : (s.closeMerge).mergeWait = none := rfl
@[simp] theorem State.closeMerge_sleepBreak : (s.closeMerge).sleepBreak = s.sleepBreak := rfl
@[simp] theorem State.closeMerge_ior : (s.closeMerge).ior = s.ior := rfl
@[simp] theorem State.closeMerge_plat : (s.closeMerge).plat = s.plat := rfl
@[simp] theorem State.closeMerge_draws : (s.closeMerge).draws = s.draws := rfl
@[simp] theorem State.closeMerge_inputs : (s.closeMerge).inputs = s.inputs := rfl
@[simp] theorem State.closeMerge_outputs : (s.closeMerge).outputs = s.outputs := rfl
@[simp] theorem State.closeMerge_ir : (s.closeMerge).ir = s.ir := rfl
@[simp] theorem State.closeMerge_pair : (s.closeMerge).pair = s.pair := rfl
@[simp] theorem State.closeMerge_lastExc : (s.closeMerge).lastExc = s.lastExc := rfl
@[simp] theorem State.closeMerge_codeHist : (s.closeMerge).codeHist = s.codeHist := rfl
@[simp] theorem State.closeMerge_ncRecent : (s.closeMerge).ncRecent = s.ncRecent := rfl
@[simp] theorem State.closeMerge_early : (s.closeMerge).early = s.early := rfl
@[simp] theorem State.closeMerge_earlyBroken : (s.closeMerge).earlyBroken = s.earlyBroken := rfl
@[simp] theorem State.closeMerge_unflushed : (s.closeMerge).unflushed = s.unflushed := rfl
@[simp] theorem State.closeMerge_dcDirty : (s.closeMerge).dcDirty = s.dcDirty := rfl
@[simp] theorem State.closeMerge_disconnected : (s.closeMerge).disconnected = s.disconnected := rfl
@[simp] theorem State.closeMerge_kinds : (s.closeMerge).kinds = s.kinds := rfl
@[simp] theorem State.closeMerge_idaMatchWriter : (s.closeMerge).idaMatchWriter = s.idaMatchWriter := rfl
@[simp] theorem State.closeMerge_idaMaskWriter : (s.closeMerge).idaMaskWriter = s.idaMaskWriter := rfl
@[simp] theorem State.closeMerge_retJump : (s.closeMerge).retJump = s.retJump := rfl
@[simp] theorem State.closeMerge_timerWild : (s.closeMerge).timerWild = s.timerWild := rfl
@[simp] theorem State.closeMerge_lateErrors : (s.closeMerge).lateErrors = s.lateErrors := rfl
@[simp] theorem State.closeMerge_dcErrors : (s.closeMerge).dcErrors = s.dcErrors := rfl
@[simp] theorem State.closeMerge_armed : (s.closeMerge).armed = s.armed := rfl
@[simp] theorem State.closeMerge_armedFetch : (s.closeMerge).armedFetch = s.armedFetch := rfl

/-! `mergeStore` -/

@[simp] theorem State.mergeStore_pc (b : Bool) : (s.mergeStore b).pc = s.pc := rfl
@[simp] theorem State.mergeStore_gpr (b : Bool) : (s.mergeStore b).gpr = s.gpr := rfl
@[simp] theorem State.mergeStore_sr (b : Bool) : (s.mergeStore b).sr = s.sr := rfl
@[simp] theorem State.mergeStore_vr (b : Bool) : (s.mergeStore b).vr = s.vr := rfl
@[simp] theorem State.mergeStore_fpcr (b : Bool) : (s.mergeStore b).fpcr = s.fpcr := rfl
@[simp] theorem State.mergeStore_lock (b : Bool) : (s.mergeStore b).lock = s.lock := rfl
@[simp] theorem State.mergeStore_coreState (b : Bool) : (s.mergeStore b).coreState = s.coreState := rfl
@[simp] theorem State.mergeStore_mem (b : Bool) : (s.mergeStore b).mem = s.mem := rfl
@[simp] theorem State.mergeStore_ibox (b : Bool) : (s.mergeStore b).ibox = s.ibox := rfl
@[simp] theorem State.mergeStore_dbox (b : Bool) : (s.mergeStore b).dbox = s.dbox := rfl
@[simp] theorem State.mergeStore_sbox (b : Bool) : (s.mergeStore b).sbox = s.sbox := rfl
@[simp] theorem State.mergeStore_ebox (b : Bool) : (s.mergeStore b).ebox = s.ebox := rfl
@[simp] theorem State.mergeStore_itb (b : Bool) : (s.mergeStore b).itb = s.itb := rfl
@[simp] theorem State.mergeStore_dtb (b : Bool) : (s.mergeStore b).dtb = s.dtb := rfl
@[simp] theorem State.mergeStore_icache (b : Bool) : (s.mergeStore b).icache = s.icache := rfl
@[simp] theorem State.mergeStore_timerCount (b : Bool) : (s.mergeStore b).timerCount = s.timerCount := rfl
@[simp] theorem State.mergeStore_hserrTime (b : Bool) : (s.mergeStore b).hserrTime = s.hserrTime := rfl
@[simp] theorem State.mergeStore_mergeWait (b : Bool) :
    (s.mergeStore b).mergeWait = if b && s.sbox.mergeOvtime != 0 then some (s.mergeWait.getD 0) else none := rfl
@[simp] theorem State.mergeStore_sleepBreak (b : Bool) : (s.mergeStore b).sleepBreak = s.sleepBreak := rfl
@[simp] theorem State.mergeStore_ior (b : Bool) : (s.mergeStore b).ior = s.ior := rfl
@[simp] theorem State.mergeStore_plat (b : Bool) : (s.mergeStore b).plat = s.plat := rfl
@[simp] theorem State.mergeStore_draws (b : Bool) : (s.mergeStore b).draws = s.draws := rfl
@[simp] theorem State.mergeStore_inputs (b : Bool) : (s.mergeStore b).inputs = s.inputs := rfl
@[simp] theorem State.mergeStore_outputs (b : Bool) : (s.mergeStore b).outputs = s.outputs := rfl
@[simp] theorem State.mergeStore_ir (b : Bool) : (s.mergeStore b).ir = s.ir := rfl
@[simp] theorem State.mergeStore_pair (b : Bool) : (s.mergeStore b).pair = s.pair := rfl
@[simp] theorem State.mergeStore_lastExc (b : Bool) : (s.mergeStore b).lastExc = s.lastExc := rfl
@[simp] theorem State.mergeStore_codeHist (b : Bool) : (s.mergeStore b).codeHist = s.codeHist := rfl
@[simp] theorem State.mergeStore_ncRecent (b : Bool) : (s.mergeStore b).ncRecent = s.ncRecent := rfl
@[simp] theorem State.mergeStore_early (b : Bool) : (s.mergeStore b).early = s.early := rfl
@[simp] theorem State.mergeStore_earlyBroken (b : Bool) : (s.mergeStore b).earlyBroken = s.earlyBroken := rfl
@[simp] theorem State.mergeStore_unflushed (b : Bool) : (s.mergeStore b).unflushed = s.unflushed := rfl
@[simp] theorem State.mergeStore_dcDirty (b : Bool) : (s.mergeStore b).dcDirty = s.dcDirty := rfl
@[simp] theorem State.mergeStore_disconnected (b : Bool) : (s.mergeStore b).disconnected = s.disconnected := rfl
@[simp] theorem State.mergeStore_kinds (b : Bool) : (s.mergeStore b).kinds = s.kinds := rfl
@[simp] theorem State.mergeStore_idaMatchWriter (b : Bool) : (s.mergeStore b).idaMatchWriter = s.idaMatchWriter := rfl
@[simp] theorem State.mergeStore_idaMaskWriter (b : Bool) : (s.mergeStore b).idaMaskWriter = s.idaMaskWriter := rfl
@[simp] theorem State.mergeStore_retJump (b : Bool) : (s.mergeStore b).retJump = s.retJump := rfl
@[simp] theorem State.mergeStore_timerWild (b : Bool) : (s.mergeStore b).timerWild = s.timerWild := rfl
@[simp] theorem State.mergeStore_lateErrors (b : Bool) : (s.mergeStore b).lateErrors = s.lateErrors := rfl
@[simp] theorem State.mergeStore_dcErrors (b : Bool) : (s.mergeStore b).dcErrors = s.dcErrors := rfl
@[simp] theorem State.mergeStore_armed (b : Bool) : (s.mergeStore b).armed = s.armed := rfl
@[simp] theorem State.mergeStore_armedFetch (b : Bool) : (s.mergeStore b).armedFetch = s.armedFetch := rfl

/-! `settle` -/

@[simp] theorem State.settle_pc : (s.settle).pc = s.pc := rfl
@[simp] theorem State.settle_gpr : (s.settle).gpr = s.gpr := rfl
@[simp] theorem State.settle_sr : (s.settle).sr = s.sr := rfl
@[simp] theorem State.settle_vr : (s.settle).vr = s.vr := rfl
@[simp] theorem State.settle_fpcr : (s.settle).fpcr = s.fpcr := rfl
@[simp] theorem State.settle_lock : (s.settle).lock = s.lock := rfl
@[simp] theorem State.settle_coreState : (s.settle).coreState = s.coreState := rfl
@[simp] theorem State.settle_mem : (s.settle).mem = s.mem := rfl
@[simp] theorem State.settle_ibox : (s.settle).ibox = s.ibox := rfl
@[simp] theorem State.settle_dbox : (s.settle).dbox = s.dbox := rfl
@[simp] theorem State.settle_sbox : (s.settle).sbox = s.sbox := rfl
@[simp] theorem State.settle_ebox : (s.settle).ebox = s.ebox := rfl
@[simp] theorem State.settle_itb : (s.settle).itb = s.itb := rfl
@[simp] theorem State.settle_dtb : (s.settle).dtb = s.dtb := rfl
@[simp] theorem State.settle_icache : (s.settle).icache = s.icache := rfl
@[simp] theorem State.settle_timerCount : (s.settle).timerCount = s.timerCount := rfl
@[simp] theorem State.settle_hserrTime : (s.settle).hserrTime = s.hserrTime := rfl
@[simp] theorem State.settle_mergeWait : (s.settle).mergeWait = s.mergeWait := rfl
@[simp] theorem State.settle_sleepBreak : (s.settle).sleepBreak = s.sleepBreak := rfl
@[simp] theorem State.settle_ior : (s.settle).ior = s.ior := rfl
@[simp] theorem State.settle_plat : (s.settle).plat = s.plat := rfl
@[simp] theorem State.settle_draws : (s.settle).draws = s.draws + s.ncRecent.length := rfl
@[simp] theorem State.settle_inputs : (s.settle).inputs = s.inputs := rfl
@[simp] theorem State.settle_outputs : (s.settle).outputs = s.outputs := rfl
@[simp] theorem State.settle_ir : (s.settle).ir = s.ir := rfl
@[simp] theorem State.settle_pair : (s.settle).pair = s.pair := rfl
@[simp] theorem State.settle_lastExc : (s.settle).lastExc = s.lastExc := rfl
@[simp] theorem State.settle_codeHist : (s.settle).codeHist = s.codeHist := rfl
@[simp] theorem State.settle_ncRecent : (s.settle).ncRecent = pendingDrawn s.draws [] s.ncRecent := rfl
@[simp] theorem State.settle_early : (s.settle).early = s.early := rfl
@[simp] theorem State.settle_earlyBroken : (s.settle).earlyBroken = s.earlyBroken := rfl
@[simp] theorem State.settle_unflushed : (s.settle).unflushed = s.unflushed := rfl
@[simp] theorem State.settle_dcDirty : (s.settle).dcDirty = s.dcDirty := rfl
@[simp] theorem State.settle_disconnected : (s.settle).disconnected = s.disconnected := rfl
@[simp] theorem State.settle_kinds : (s.settle).kinds = s.kinds := rfl
@[simp] theorem State.settle_idaMatchWriter : (s.settle).idaMatchWriter = s.idaMatchWriter := rfl
@[simp] theorem State.settle_idaMaskWriter : (s.settle).idaMaskWriter = s.idaMaskWriter := rfl
@[simp] theorem State.settle_retJump : (s.settle).retJump = s.retJump := rfl
@[simp] theorem State.settle_timerWild : (s.settle).timerWild = s.timerWild := rfl
@[simp] theorem State.settle_lateErrors : (s.settle).lateErrors = s.lateErrors := rfl
@[simp] theorem State.settle_dcErrors : (s.settle).dcErrors = s.dcErrors := rfl
@[simp] theorem State.settle_armed : (s.settle).armed = s.armed := rfl
@[simp] theorem State.settle_armedFetch : (s.settle).armedFetch = s.armedFetch := rfl

/-! `settleAt` -/

@[simp] theorem State.settleAt_pc (x n : Nat) : (s.settleAt x n).pc = s.pc := rfl
@[simp] theorem State.settleAt_gpr (x n : Nat) : (s.settleAt x n).gpr = s.gpr := rfl
@[simp] theorem State.settleAt_sr (x n : Nat) : (s.settleAt x n).sr = s.sr := rfl
@[simp] theorem State.settleAt_vr (x n : Nat) : (s.settleAt x n).vr = s.vr := rfl
@[simp] theorem State.settleAt_fpcr (x n : Nat) : (s.settleAt x n).fpcr = s.fpcr := rfl
@[simp] theorem State.settleAt_lock (x n : Nat) : (s.settleAt x n).lock = s.lock := rfl
@[simp] theorem State.settleAt_coreState (x n : Nat) : (s.settleAt x n).coreState = s.coreState := rfl
@[simp] theorem State.settleAt_mem (x n : Nat) : (s.settleAt x n).mem = s.mem := rfl
@[simp] theorem State.settleAt_ibox (x n : Nat) : (s.settleAt x n).ibox = s.ibox := rfl
@[simp] theorem State.settleAt_dbox (x n : Nat) : (s.settleAt x n).dbox = s.dbox := rfl
@[simp] theorem State.settleAt_sbox (x n : Nat) : (s.settleAt x n).sbox = s.sbox := rfl
@[simp] theorem State.settleAt_ebox (x n : Nat) : (s.settleAt x n).ebox = s.ebox := rfl
@[simp] theorem State.settleAt_itb (x n : Nat) : (s.settleAt x n).itb = s.itb := rfl
@[simp] theorem State.settleAt_dtb (x n : Nat) : (s.settleAt x n).dtb = s.dtb := rfl
@[simp] theorem State.settleAt_icache (x n : Nat) : (s.settleAt x n).icache = s.icache := rfl
@[simp] theorem State.settleAt_timerCount (x n : Nat) : (s.settleAt x n).timerCount = s.timerCount := rfl
@[simp] theorem State.settleAt_hserrTime (x n : Nat) : (s.settleAt x n).hserrTime = s.hserrTime := rfl
@[simp] theorem State.settleAt_mergeWait (x n : Nat) : (s.settleAt x n).mergeWait = s.mergeWait := rfl
@[simp] theorem State.settleAt_sleepBreak (x n : Nat) : (s.settleAt x n).sleepBreak = s.sleepBreak := rfl
@[simp] theorem State.settleAt_ior (x n : Nat) : (s.settleAt x n).ior = s.ior := rfl
@[simp] theorem State.settleAt_plat (x n : Nat) : (s.settleAt x n).plat = s.plat := rfl
@[simp] theorem State.settleAt_draws (x n : Nat) : (s.settleAt x n).draws = s.draws := rfl
@[simp] theorem State.settleAt_inputs (x n : Nat) : (s.settleAt x n).inputs = s.inputs := rfl
@[simp] theorem State.settleAt_outputs (x n : Nat) : (s.settleAt x n).outputs = s.outputs := rfl
@[simp] theorem State.settleAt_ir (x n : Nat) : (s.settleAt x n).ir = s.ir := rfl
@[simp] theorem State.settleAt_pair (x n : Nat) : (s.settleAt x n).pair = s.pair := rfl
@[simp] theorem State.settleAt_lastExc (x n : Nat) : (s.settleAt x n).lastExc = s.lastExc := rfl
@[simp] theorem State.settleAt_codeHist (x n : Nat) : (s.settleAt x n).codeHist = s.codeHist := rfl
@[simp] theorem State.settleAt_ncRecent (x n : Nat) : (s.settleAt x n).ncRecent = pendingAfter x n [] s.ncRecent := rfl
@[simp] theorem State.settleAt_early (x n : Nat) : (s.settleAt x n).early = s.early := rfl
@[simp] theorem State.settleAt_earlyBroken (x n : Nat) : (s.settleAt x n).earlyBroken = s.earlyBroken := rfl
@[simp] theorem State.settleAt_unflushed (x n : Nat) : (s.settleAt x n).unflushed = s.unflushed := rfl
@[simp] theorem State.settleAt_dcDirty (x n : Nat) : (s.settleAt x n).dcDirty = s.dcDirty := rfl
@[simp] theorem State.settleAt_disconnected (x n : Nat) : (s.settleAt x n).disconnected = s.disconnected := rfl
@[simp] theorem State.settleAt_kinds (x n : Nat) : (s.settleAt x n).kinds = s.kinds := rfl
@[simp] theorem State.settleAt_idaMatchWriter (x n : Nat) : (s.settleAt x n).idaMatchWriter = s.idaMatchWriter := rfl
@[simp] theorem State.settleAt_idaMaskWriter (x n : Nat) : (s.settleAt x n).idaMaskWriter = s.idaMaskWriter := rfl
@[simp] theorem State.settleAt_retJump (x n : Nat) : (s.settleAt x n).retJump = s.retJump := rfl
@[simp] theorem State.settleAt_timerWild (x n : Nat) : (s.settleAt x n).timerWild = s.timerWild := rfl
@[simp] theorem State.settleAt_lateErrors (x n : Nat) : (s.settleAt x n).lateErrors = s.lateErrors := rfl
@[simp] theorem State.settleAt_dcErrors (x n : Nat) : (s.settleAt x n).dcErrors = s.dcErrors := rfl
@[simp] theorem State.settleAt_armed (x n : Nat) : (s.settleAt x n).armed = s.armed := rfl
@[simp] theorem State.settleAt_armedFetch (x n : Nat) : (s.settleAt x n).armedFetch = s.armedFetch := rfl

/-! `orderedBefore` -/

@[simp] theorem State.orderedBefore_pc (x n : Nat) : (s.orderedBefore x n).pc = s.pc := rfl
@[simp] theorem State.orderedBefore_gpr (x n : Nat) : (s.orderedBefore x n).gpr = s.gpr := rfl
@[simp] theorem State.orderedBefore_sr (x n : Nat) : (s.orderedBefore x n).sr = s.sr := rfl
@[simp] theorem State.orderedBefore_vr (x n : Nat) : (s.orderedBefore x n).vr = s.vr := rfl
@[simp] theorem State.orderedBefore_fpcr (x n : Nat) : (s.orderedBefore x n).fpcr = s.fpcr := rfl
@[simp] theorem State.orderedBefore_lock (x n : Nat) : (s.orderedBefore x n).lock = s.lock := rfl
@[simp] theorem State.orderedBefore_coreState (x n : Nat) : (s.orderedBefore x n).coreState = s.coreState := rfl
@[simp] theorem State.orderedBefore_mem (x n : Nat) : (s.orderedBefore x n).mem = s.mem := rfl
@[simp] theorem State.orderedBefore_ibox (x n : Nat) : (s.orderedBefore x n).ibox = s.ibox := rfl
@[simp] theorem State.orderedBefore_dbox (x n : Nat) : (s.orderedBefore x n).dbox = s.dbox := rfl
@[simp] theorem State.orderedBefore_sbox (x n : Nat) : (s.orderedBefore x n).sbox = s.sbox := rfl
@[simp] theorem State.orderedBefore_ebox (x n : Nat) : (s.orderedBefore x n).ebox = s.ebox := rfl
@[simp] theorem State.orderedBefore_itb (x n : Nat) : (s.orderedBefore x n).itb = s.itb := rfl
@[simp] theorem State.orderedBefore_dtb (x n : Nat) : (s.orderedBefore x n).dtb = s.dtb := rfl
@[simp] theorem State.orderedBefore_icache (x n : Nat) : (s.orderedBefore x n).icache = s.icache := rfl
@[simp] theorem State.orderedBefore_timerCount (x n : Nat) : (s.orderedBefore x n).timerCount = s.timerCount := rfl
@[simp] theorem State.orderedBefore_hserrTime (x n : Nat) : (s.orderedBefore x n).hserrTime = s.hserrTime := rfl
@[simp] theorem State.orderedBefore_mergeWait (x n : Nat) : (s.orderedBefore x n).mergeWait = s.mergeWait := rfl
@[simp] theorem State.orderedBefore_sleepBreak (x n : Nat) : (s.orderedBefore x n).sleepBreak = s.sleepBreak := rfl
@[simp] theorem State.orderedBefore_ior (x n : Nat) : (s.orderedBefore x n).ior = s.ior := rfl
@[simp] theorem State.orderedBefore_plat (x n : Nat) : (s.orderedBefore x n).plat = s.plat := rfl
@[simp] theorem State.orderedBefore_draws (x n : Nat) : (s.orderedBefore x n).draws = s.draws := rfl
@[simp] theorem State.orderedBefore_inputs (x n : Nat) : (s.orderedBefore x n).inputs = s.inputs := rfl
@[simp] theorem State.orderedBefore_outputs (x n : Nat) : (s.orderedBefore x n).outputs = s.outputs := rfl
@[simp] theorem State.orderedBefore_ir (x n : Nat) : (s.orderedBefore x n).ir = s.ir := rfl
@[simp] theorem State.orderedBefore_pair (x n : Nat) : (s.orderedBefore x n).pair = s.pair := rfl
@[simp] theorem State.orderedBefore_lastExc (x n : Nat) : (s.orderedBefore x n).lastExc = s.lastExc := rfl
@[simp] theorem State.orderedBefore_codeHist (x n : Nat) : (s.orderedBefore x n).codeHist = s.codeHist := rfl
@[simp] theorem State.orderedBefore_ncRecent (x n : Nat) : (s.orderedBefore x n).ncRecent = s.ncRecent := rfl
@[simp] theorem State.orderedBefore_early (x n : Nat) : (s.orderedBefore x n).early = s.early := rfl
@[simp] theorem State.orderedBefore_earlyBroken (x n : Nat) :
    (s.orderedBefore x n).earlyBroken = (s.earlyBroken || s.early.any fun p => p.overlaps x n) := rfl
@[simp] theorem State.orderedBefore_unflushed (x n : Nat) : (s.orderedBefore x n).unflushed = s.unflushed := rfl
@[simp] theorem State.orderedBefore_dcDirty (x n : Nat) : (s.orderedBefore x n).dcDirty = s.dcDirty := rfl
@[simp] theorem State.orderedBefore_disconnected (x n : Nat) : (s.orderedBefore x n).disconnected = s.disconnected := rfl
@[simp] theorem State.orderedBefore_kinds (x n : Nat) : (s.orderedBefore x n).kinds = s.kinds := rfl
@[simp] theorem State.orderedBefore_idaMatchWriter (x n : Nat) :
    (s.orderedBefore x n).idaMatchWriter = s.idaMatchWriter := rfl
@[simp] theorem State.orderedBefore_idaMaskWriter (x n : Nat) :
    (s.orderedBefore x n).idaMaskWriter = s.idaMaskWriter := rfl
@[simp] theorem State.orderedBefore_retJump (x n : Nat) : (s.orderedBefore x n).retJump = s.retJump := rfl
@[simp] theorem State.orderedBefore_timerWild (x n : Nat) : (s.orderedBefore x n).timerWild = s.timerWild := rfl
@[simp] theorem State.orderedBefore_lateErrors (x n : Nat) : (s.orderedBefore x n).lateErrors = s.lateErrors := rfl
@[simp] theorem State.orderedBefore_dcErrors (x n : Nat) : (s.orderedBefore x n).dcErrors = s.dcErrors := rfl
@[simp] theorem State.orderedBefore_armed (x n : Nat) : (s.orderedBefore x n).armed = s.armed := rfl
@[simp] theorem State.orderedBefore_armedFetch (x n : Nat) : (s.orderedBefore x n).armedFetch = s.armedFetch := rfl

/-! `putBytes` -/

@[simp] theorem State.putBytes_pc (x n : Nat) (v : Vec) : (s.putBytes x n v).pc = s.pc := rfl
@[simp] theorem State.putBytes_gpr (x n : Nat) (v : Vec) : (s.putBytes x n v).gpr = s.gpr := rfl
@[simp] theorem State.putBytes_sr (x n : Nat) (v : Vec) : (s.putBytes x n v).sr = s.sr := rfl
@[simp] theorem State.putBytes_vr (x n : Nat) (v : Vec) : (s.putBytes x n v).vr = s.vr := rfl
@[simp] theorem State.putBytes_fpcr (x n : Nat) (v : Vec) : (s.putBytes x n v).fpcr = s.fpcr := rfl
@[simp] theorem State.putBytes_lock (x n : Nat) (v : Vec) : (s.putBytes x n v).lock = s.lock := rfl
@[simp] theorem State.putBytes_coreState (x n : Nat) (v : Vec) : (s.putBytes x n v).coreState = s.coreState := rfl
@[simp] theorem State.putBytes_mem (x n : Nat) (v : Vec) : (s.putBytes x n v).mem = writeBytes s.mem x n v := rfl
@[simp] theorem State.putBytes_ibox (x n : Nat) (v : Vec) : (s.putBytes x n v).ibox = s.ibox := rfl
@[simp] theorem State.putBytes_dbox (x n : Nat) (v : Vec) : (s.putBytes x n v).dbox = s.dbox := rfl
@[simp] theorem State.putBytes_sbox (x n : Nat) (v : Vec) : (s.putBytes x n v).sbox = s.sbox := rfl
@[simp] theorem State.putBytes_ebox (x n : Nat) (v : Vec) : (s.putBytes x n v).ebox = s.ebox := rfl
@[simp] theorem State.putBytes_itb (x n : Nat) (v : Vec) : (s.putBytes x n v).itb = s.itb := rfl
@[simp] theorem State.putBytes_dtb (x n : Nat) (v : Vec) : (s.putBytes x n v).dtb = s.dtb := rfl
@[simp] theorem State.putBytes_icache (x n : Nat) (v : Vec) : (s.putBytes x n v).icache = s.icacheCoherent x n := rfl
@[simp] theorem State.putBytes_timerCount (x n : Nat) (v : Vec) : (s.putBytes x n v).timerCount = s.timerCount := rfl
@[simp] theorem State.putBytes_hserrTime (x n : Nat) (v : Vec) : (s.putBytes x n v).hserrTime = s.hserrTime := rfl
@[simp] theorem State.putBytes_mergeWait (x n : Nat) (v : Vec) : (s.putBytes x n v).mergeWait = s.mergeWait := rfl
@[simp] theorem State.putBytes_sleepBreak (x n : Nat) (v : Vec) : (s.putBytes x n v).sleepBreak = s.sleepBreak := rfl
@[simp] theorem State.putBytes_ior (x n : Nat) (v : Vec) : (s.putBytes x n v).ior = s.ior := rfl
@[simp] theorem State.putBytes_plat (x n : Nat) (v : Vec) : (s.putBytes x n v).plat = s.plat := rfl
@[simp] theorem State.putBytes_draws (x n : Nat) (v : Vec) : (s.putBytes x n v).draws = s.draws := rfl
@[simp] theorem State.putBytes_inputs (x n : Nat) (v : Vec) : (s.putBytes x n v).inputs = s.inputs := rfl
@[simp] theorem State.putBytes_outputs (x n : Nat) (v : Vec) : (s.putBytes x n v).outputs = s.outputs := rfl
@[simp] theorem State.putBytes_ir (x n : Nat) (v : Vec) : (s.putBytes x n v).ir = s.ir := rfl
@[simp] theorem State.putBytes_pair (x n : Nat) (v : Vec) : (s.putBytes x n v).pair = s.pair := rfl
@[simp] theorem State.putBytes_lastExc (x n : Nat) (v : Vec) : (s.putBytes x n v).lastExc = s.lastExc := rfl
@[simp] theorem State.putBytes_codeHist (x n : Nat) (v : Vec) :
    (s.putBytes x n v).codeHist = oldBytes x n (readBytes s.codeMem x n) (lowBytes v n) ++ s.codeHist := rfl
@[simp] theorem State.putBytes_ncRecent (x n : Nat) (v : Vec) : (s.putBytes x n v).ncRecent = s.ncRecent := rfl
@[simp] theorem State.putBytes_early (x n : Nat) (v : Vec) :
    (s.putBytes x n v).early = s.early.map fun p => p.over (writeBytes s.codeMem x n v) := rfl
@[simp] theorem State.putBytes_earlyBroken (x n : Nat) (v : Vec) : (s.putBytes x n v).earlyBroken = s.earlyBroken := rfl
@[simp] theorem State.putBytes_unflushed (x n : Nat) (v : Vec) : (s.putBytes x n v).unflushed = s.unflushed := rfl
@[simp] theorem State.putBytes_dcDirty (x n : Nat) (v : Vec) : (s.putBytes x n v).dcDirty = s.dcDirty := rfl
@[simp] theorem State.putBytes_disconnected (x n : Nat) (v : Vec) : (s.putBytes x n v).disconnected = s.disconnected := rfl
@[simp] theorem State.putBytes_kinds (x n : Nat) (v : Vec) : (s.putBytes x n v).kinds = s.kinds := rfl
@[simp] theorem State.putBytes_idaMatchWriter (x n : Nat) (v : Vec) :
    (s.putBytes x n v).idaMatchWriter = s.idaMatchWriter := rfl
@[simp] theorem State.putBytes_idaMaskWriter (x n : Nat) (v : Vec) :
    (s.putBytes x n v).idaMaskWriter = s.idaMaskWriter := rfl
@[simp] theorem State.putBytes_retJump (x n : Nat) (v : Vec) : (s.putBytes x n v).retJump = s.retJump := rfl
@[simp] theorem State.putBytes_timerWild (x n : Nat) (v : Vec) : (s.putBytes x n v).timerWild = s.timerWild := rfl
@[simp] theorem State.putBytes_lateErrors (x n : Nat) (v : Vec) : (s.putBytes x n v).lateErrors = s.lateErrors := rfl
@[simp] theorem State.putBytes_dcErrors (x n : Nat) (v : Vec) : (s.putBytes x n v).dcErrors = s.dcErrors := rfl
@[simp] theorem State.putBytes_armed (x n : Nat) (v : Vec) : (s.putBytes x n v).armed = s.armed := rfl
@[simp] theorem State.putBytes_armedFetch (x n : Nat) (v : Vec) : (s.putBytes x n v).armedFetch = s.armedFetch := rfl

/-! `cached` -/

@[simp] theorem State.cached_pc (x n : Nat) : (s.cached x n).pc = s.pc := rfl
@[simp] theorem State.cached_gpr (x n : Nat) : (s.cached x n).gpr = s.gpr := rfl
@[simp] theorem State.cached_sr (x n : Nat) : (s.cached x n).sr = s.sr := rfl
@[simp] theorem State.cached_vr (x n : Nat) : (s.cached x n).vr = s.vr := rfl
@[simp] theorem State.cached_fpcr (x n : Nat) : (s.cached x n).fpcr = s.fpcr := rfl
@[simp] theorem State.cached_lock (x n : Nat) : (s.cached x n).lock = s.lock := rfl
@[simp] theorem State.cached_coreState (x n : Nat) : (s.cached x n).coreState = s.coreState := rfl
@[simp] theorem State.cached_mem (x n : Nat) : (s.cached x n).mem = s.mem := rfl
@[simp] theorem State.cached_ibox (x n : Nat) : (s.cached x n).ibox = s.ibox := rfl
@[simp] theorem State.cached_dbox (x n : Nat) : (s.cached x n).dbox = s.dbox := rfl
@[simp] theorem State.cached_sbox (x n : Nat) : (s.cached x n).sbox = s.sbox := rfl
@[simp] theorem State.cached_ebox (x n : Nat) : (s.cached x n).ebox = s.ebox := rfl
@[simp] theorem State.cached_itb (x n : Nat) : (s.cached x n).itb = s.itb := rfl
@[simp] theorem State.cached_dtb (x n : Nat) : (s.cached x n).dtb = s.dtb := rfl
@[simp] theorem State.cached_icache (x n : Nat) : (s.cached x n).icache = s.icache := rfl
@[simp] theorem State.cached_timerCount (x n : Nat) : (s.cached x n).timerCount = s.timerCount := rfl
@[simp] theorem State.cached_hserrTime (x n : Nat) : (s.cached x n).hserrTime = s.hserrTime := rfl
@[simp] theorem State.cached_mergeWait (x n : Nat) : (s.cached x n).mergeWait = s.mergeWait := rfl
@[simp] theorem State.cached_sleepBreak (x n : Nat) : (s.cached x n).sleepBreak = s.sleepBreak := rfl
@[simp] theorem State.cached_ior (x n : Nat) : (s.cached x n).ior = s.ior := rfl
@[simp] theorem State.cached_plat (x n : Nat) : (s.cached x n).plat = s.plat := rfl
@[simp] theorem State.cached_draws (x n : Nat) : (s.cached x n).draws = s.draws := rfl
@[simp] theorem State.cached_inputs (x n : Nat) : (s.cached x n).inputs = s.inputs := rfl
@[simp] theorem State.cached_outputs (x n : Nat) : (s.cached x n).outputs = s.outputs := rfl
@[simp] theorem State.cached_ir (x n : Nat) : (s.cached x n).ir = s.ir := rfl
@[simp] theorem State.cached_pair (x n : Nat) : (s.cached x n).pair = s.pair := rfl
@[simp] theorem State.cached_lastExc (x n : Nat) : (s.cached x n).lastExc = s.lastExc := rfl
@[simp] theorem State.cached_codeHist (x n : Nat) : (s.cached x n).codeHist = s.codeHist := rfl
@[simp] theorem State.cached_ncRecent (x n : Nat) : (s.cached x n).ncRecent = s.ncRecent := rfl
@[simp] theorem State.cached_early (x n : Nat) : (s.cached x n).early = s.early := rfl
@[simp] theorem State.cached_earlyBroken (x n : Nat) : (s.cached x n).earlyBroken = s.earlyBroken := rfl
@[simp] theorem State.cached_unflushed (x n : Nat) : (s.cached x n).unflushed = addAddrs s.unflushed x n := rfl
@[simp] theorem State.cached_dcDirty (x n : Nat) : (s.cached x n).dcDirty = s.dcDirty.insert (x / 128) := rfl
@[simp] theorem State.cached_disconnected (x n : Nat) : (s.cached x n).disconnected = s.disconnected := rfl
@[simp] theorem State.cached_kinds (x n : Nat) : (s.cached x n).kinds = s.kinds := rfl
@[simp] theorem State.cached_idaMatchWriter (x n : Nat) : (s.cached x n).idaMatchWriter = s.idaMatchWriter := rfl
@[simp] theorem State.cached_idaMaskWriter (x n : Nat) : (s.cached x n).idaMaskWriter = s.idaMaskWriter := rfl
@[simp] theorem State.cached_retJump (x n : Nat) : (s.cached x n).retJump = s.retJump := rfl
@[simp] theorem State.cached_timerWild (x n : Nat) : (s.cached x n).timerWild = s.timerWild := rfl
@[simp] theorem State.cached_lateErrors (x n : Nat) : (s.cached x n).lateErrors = s.lateErrors := rfl
@[simp] theorem State.cached_dcErrors (x n : Nat) : (s.cached x n).dcErrors = s.dcErrors := rfl
@[simp] theorem State.cached_armed (x n : Nat) : (s.cached x n).armed = s.armed := rfl
@[simp] theorem State.cached_armedFetch (x n : Nat) : (s.cached x n).armedFetch = s.armedFetch := rfl

/-! `lineClean` -/

@[simp] theorem State.lineClean_pc (l : Nat) : (s.lineClean l).pc = s.pc := rfl
@[simp] theorem State.lineClean_gpr (l : Nat) : (s.lineClean l).gpr = s.gpr := rfl
@[simp] theorem State.lineClean_sr (l : Nat) : (s.lineClean l).sr = s.sr := rfl
@[simp] theorem State.lineClean_vr (l : Nat) : (s.lineClean l).vr = s.vr := rfl
@[simp] theorem State.lineClean_fpcr (l : Nat) : (s.lineClean l).fpcr = s.fpcr := rfl
@[simp] theorem State.lineClean_lock (l : Nat) : (s.lineClean l).lock = s.lock := rfl
@[simp] theorem State.lineClean_coreState (l : Nat) : (s.lineClean l).coreState = s.coreState := rfl
@[simp] theorem State.lineClean_mem (l : Nat) : (s.lineClean l).mem = s.mem := rfl
@[simp] theorem State.lineClean_ibox (l : Nat) : (s.lineClean l).ibox = s.ibox := rfl
@[simp] theorem State.lineClean_dbox (l : Nat) : (s.lineClean l).dbox = s.dbox := rfl
@[simp] theorem State.lineClean_sbox (l : Nat) : (s.lineClean l).sbox = s.sbox := rfl
@[simp] theorem State.lineClean_ebox (l : Nat) : (s.lineClean l).ebox = s.ebox := rfl
@[simp] theorem State.lineClean_itb (l : Nat) : (s.lineClean l).itb = s.itb := rfl
@[simp] theorem State.lineClean_dtb (l : Nat) : (s.lineClean l).dtb = s.dtb := rfl
@[simp] theorem State.lineClean_icache (l : Nat) : (s.lineClean l).icache = s.icache := rfl
@[simp] theorem State.lineClean_timerCount (l : Nat) : (s.lineClean l).timerCount = s.timerCount := rfl
@[simp] theorem State.lineClean_hserrTime (l : Nat) : (s.lineClean l).hserrTime = s.hserrTime := rfl
@[simp] theorem State.lineClean_mergeWait (l : Nat) : (s.lineClean l).mergeWait = s.mergeWait := rfl
@[simp] theorem State.lineClean_sleepBreak (l : Nat) : (s.lineClean l).sleepBreak = s.sleepBreak := rfl
@[simp] theorem State.lineClean_ior (l : Nat) : (s.lineClean l).ior = s.ior := rfl
@[simp] theorem State.lineClean_plat (l : Nat) : (s.lineClean l).plat = s.plat := rfl
@[simp] theorem State.lineClean_draws (l : Nat) : (s.lineClean l).draws = s.draws := rfl
@[simp] theorem State.lineClean_inputs (l : Nat) : (s.lineClean l).inputs = s.inputs := rfl
@[simp] theorem State.lineClean_outputs (l : Nat) : (s.lineClean l).outputs = s.outputs := rfl
@[simp] theorem State.lineClean_ir (l : Nat) : (s.lineClean l).ir = s.ir := rfl
@[simp] theorem State.lineClean_pair (l : Nat) : (s.lineClean l).pair = s.pair := rfl
@[simp] theorem State.lineClean_lastExc (l : Nat) : (s.lineClean l).lastExc = s.lastExc := rfl
@[simp] theorem State.lineClean_codeHist (l : Nat) : (s.lineClean l).codeHist = s.codeHist := rfl
@[simp] theorem State.lineClean_ncRecent (l : Nat) : (s.lineClean l).ncRecent = s.ncRecent := rfl
@[simp] theorem State.lineClean_early (l : Nat) : (s.lineClean l).early = s.early := rfl
@[simp] theorem State.lineClean_earlyBroken (l : Nat) : (s.lineClean l).earlyBroken = s.earlyBroken := rfl
@[simp] theorem State.lineClean_unflushed (l : Nat) : (s.lineClean l).unflushed = s.unflushed := rfl
@[simp] theorem State.lineClean_dcDirty (l : Nat) : (s.lineClean l).dcDirty = s.dcDirty.filter fun k => k != l := rfl
@[simp] theorem State.lineClean_disconnected (l : Nat) : (s.lineClean l).disconnected = s.disconnected := rfl
@[simp] theorem State.lineClean_kinds (l : Nat) : (s.lineClean l).kinds = s.kinds := rfl
@[simp] theorem State.lineClean_idaMatchWriter (l : Nat) : (s.lineClean l).idaMatchWriter = s.idaMatchWriter := rfl
@[simp] theorem State.lineClean_idaMaskWriter (l : Nat) : (s.lineClean l).idaMaskWriter = s.idaMaskWriter := rfl
@[simp] theorem State.lineClean_retJump (l : Nat) : (s.lineClean l).retJump = s.retJump := rfl
@[simp] theorem State.lineClean_timerWild (l : Nat) : (s.lineClean l).timerWild = s.timerWild := rfl
@[simp] theorem State.lineClean_lateErrors (l : Nat) : (s.lineClean l).lateErrors = s.lateErrors := rfl
@[simp] theorem State.lineClean_dcErrors (l : Nat) : (s.lineClean l).dcErrors = s.dcErrors := rfl
@[simp] theorem State.lineClean_armed (l : Nat) : (s.lineClean l).armed = s.armed := rfl
@[simp] theorem State.lineClean_armedFetch (l : Nat) : (s.lineClean l).armedFetch = s.armedFetch := rfl

/-! `damage` -/

@[simp] theorem State.damage_pc (x n : Nat) : (s.damage x n).pc = s.pc := rfl
@[simp] theorem State.damage_gpr (x n : Nat) : (s.damage x n).gpr = s.gpr := rfl
@[simp] theorem State.damage_sr (x n : Nat) : (s.damage x n).sr = s.sr := rfl
@[simp] theorem State.damage_vr (x n : Nat) : (s.damage x n).vr = s.vr := rfl
@[simp] theorem State.damage_fpcr (x n : Nat) : (s.damage x n).fpcr = s.fpcr := rfl
@[simp] theorem State.damage_lock (x n : Nat) : (s.damage x n).lock = s.lock := rfl
@[simp] theorem State.damage_coreState (x n : Nat) : (s.damage x n).coreState = s.coreState := rfl
@[simp] theorem State.damage_mem (x n : Nat) :
    (s.damage x n).mem = loseBytes s.mem s.draws ((List.range n).map fun i => x + i) := rfl
@[simp] theorem State.damage_ibox (x n : Nat) : (s.damage x n).ibox = s.ibox := rfl
@[simp] theorem State.damage_dbox (x n : Nat) : (s.damage x n).dbox = s.dbox := rfl
@[simp] theorem State.damage_sbox (x n : Nat) : (s.damage x n).sbox = s.sbox := rfl
@[simp] theorem State.damage_ebox (x n : Nat) : (s.damage x n).ebox = s.ebox := rfl
@[simp] theorem State.damage_itb (x n : Nat) : (s.damage x n).itb = s.itb := rfl
@[simp] theorem State.damage_dtb (x n : Nat) : (s.damage x n).dtb = s.dtb := rfl
@[simp] theorem State.damage_icache (x n : Nat) : (s.damage x n).icache = s.icache := rfl
@[simp] theorem State.damage_timerCount (x n : Nat) : (s.damage x n).timerCount = s.timerCount := rfl
@[simp] theorem State.damage_hserrTime (x n : Nat) : (s.damage x n).hserrTime = s.hserrTime := rfl
@[simp] theorem State.damage_mergeWait (x n : Nat) : (s.damage x n).mergeWait = s.mergeWait := rfl
@[simp] theorem State.damage_sleepBreak (x n : Nat) : (s.damage x n).sleepBreak = s.sleepBreak := rfl
@[simp] theorem State.damage_ior (x n : Nat) : (s.damage x n).ior = s.ior := rfl
@[simp] theorem State.damage_plat (x n : Nat) : (s.damage x n).plat = s.plat := rfl
@[simp] theorem State.damage_draws (x n : Nat) : (s.damage x n).draws = s.draws + n := rfl
@[simp] theorem State.damage_inputs (x n : Nat) : (s.damage x n).inputs = s.inputs := rfl
@[simp] theorem State.damage_outputs (x n : Nat) : (s.damage x n).outputs = s.outputs := rfl
@[simp] theorem State.damage_ir (x n : Nat) : (s.damage x n).ir = s.ir := rfl
@[simp] theorem State.damage_pair (x n : Nat) : (s.damage x n).pair = s.pair := rfl
@[simp] theorem State.damage_lastExc (x n : Nat) : (s.damage x n).lastExc = s.lastExc := rfl
@[simp] theorem State.damage_codeHist (x n : Nat) : (s.damage x n).codeHist = s.codeHist := rfl
@[simp] theorem State.damage_ncRecent (x n : Nat) : (s.damage x n).ncRecent = pendingAfter x n [] s.ncRecent := rfl
@[simp] theorem State.damage_early (x n : Nat) :
    (s.damage x n).early =
      s.early.map fun p => p.over (loseBytes s.codeMem s.draws ((List.range n).map fun i => x + i)) := rfl
@[simp] theorem State.damage_earlyBroken (x n : Nat) : (s.damage x n).earlyBroken = s.earlyBroken := rfl
@[simp] theorem State.damage_unflushed (x n : Nat) : (s.damage x n).unflushed = s.unflushed := rfl
@[simp] theorem State.damage_dcDirty (x n : Nat) : (s.damage x n).dcDirty = s.dcDirty := rfl
@[simp] theorem State.damage_disconnected (x n : Nat) : (s.damage x n).disconnected = s.disconnected := rfl
@[simp] theorem State.damage_kinds (x n : Nat) : (s.damage x n).kinds = s.kinds := rfl
@[simp] theorem State.damage_idaMatchWriter (x n : Nat) : (s.damage x n).idaMatchWriter = s.idaMatchWriter := rfl
@[simp] theorem State.damage_idaMaskWriter (x n : Nat) : (s.damage x n).idaMaskWriter = s.idaMaskWriter := rfl
@[simp] theorem State.damage_retJump (x n : Nat) : (s.damage x n).retJump = s.retJump := rfl
@[simp] theorem State.damage_timerWild (x n : Nat) : (s.damage x n).timerWild = s.timerWild := rfl
@[simp] theorem State.damage_lateErrors (x n : Nat) : (s.damage x n).lateErrors = s.lateErrors := rfl
@[simp] theorem State.damage_dcErrors (x n : Nat) : (s.damage x n).dcErrors = s.dcErrors := rfl
@[simp] theorem State.damage_armed (x n : Nat) : (s.damage x n).armed = s.armed := rfl
@[simp] theorem State.damage_armedFetch (x n : Nat) : (s.damage x n).armedFetch = s.armedFetch := rfl

/-! `enterSysCall` -/

@[simp] theorem State.enterSysCall_pc (fn : BitVec 25) : (s.enterSysCall fn).pc = sysEntry s.ibox.priBase fn := rfl
@[simp] theorem State.enterSysCall_gpr (fn : BitVec 25) : (s.enterSysCall fn).gpr = s.gpr := rfl
@[simp] theorem State.enterSysCall_sr (fn : BitVec 25) :
    (s.enterSysCall fn).sr = s.sr.set 9 (clearLow2 (s.pc + 4) ||| (s.pc &&& 3)) := rfl
@[simp] theorem State.enterSysCall_vr (fn : BitVec 25) : (s.enterSysCall fn).vr = s.vr := rfl
@[simp] theorem State.enterSysCall_fpcr (fn : BitVec 25) : (s.enterSysCall fn).fpcr = s.fpcr := rfl
@[simp] theorem State.enterSysCall_lock (fn : BitVec 25) :
    (s.enterSysCall fn).lock = { s.lock with valid := false, flag := false } := rfl
@[simp] theorem State.enterSysCall_coreState (fn : BitVec 25) : (s.enterSysCall fn).coreState = s.coreState := rfl
@[simp] theorem State.enterSysCall_mem (fn : BitVec 25) : (s.enterSysCall fn).mem = s.mem := rfl
@[simp] theorem State.enterSysCall_ibox (fn : BitVec 25) : (s.enterSysCall fn).ibox = s.ibox := rfl
@[simp] theorem State.enterSysCall_dbox (fn : BitVec 25) : (s.enterSysCall fn).dbox = s.dbox := rfl
@[simp] theorem State.enterSysCall_sbox (fn : BitVec 25) : (s.enterSysCall fn).sbox = s.sbox := rfl
@[simp] theorem State.enterSysCall_ebox (fn : BitVec 25) : (s.enterSysCall fn).ebox = s.ebox := rfl
@[simp] theorem State.enterSysCall_itb (fn : BitVec 25) : (s.enterSysCall fn).itb = s.itb := rfl
@[simp] theorem State.enterSysCall_dtb (fn : BitVec 25) : (s.enterSysCall fn).dtb = s.dtb := rfl
@[simp] theorem State.enterSysCall_icache (fn : BitVec 25) : (s.enterSysCall fn).icache = s.icache := rfl
@[simp] theorem State.enterSysCall_timerCount (fn : BitVec 25) : (s.enterSysCall fn).timerCount = s.timerCount := rfl
@[simp] theorem State.enterSysCall_hserrTime (fn : BitVec 25) : (s.enterSysCall fn).hserrTime = s.hserrTime := rfl
@[simp] theorem State.enterSysCall_mergeWait (fn : BitVec 25) : (s.enterSysCall fn).mergeWait = s.mergeWait := rfl
@[simp] theorem State.enterSysCall_sleepBreak (fn : BitVec 25) : (s.enterSysCall fn).sleepBreak = s.sleepBreak := rfl
@[simp] theorem State.enterSysCall_ior (fn : BitVec 25) : (s.enterSysCall fn).ior = s.ior := rfl
@[simp] theorem State.enterSysCall_plat (fn : BitVec 25) : (s.enterSysCall fn).plat = s.plat := rfl
@[simp] theorem State.enterSysCall_draws (fn : BitVec 25) : (s.enterSysCall fn).draws = s.draws := rfl
@[simp] theorem State.enterSysCall_inputs (fn : BitVec 25) : (s.enterSysCall fn).inputs = s.inputs := rfl
@[simp] theorem State.enterSysCall_outputs (fn : BitVec 25) : (s.enterSysCall fn).outputs = s.outputs := rfl
@[simp] theorem State.enterSysCall_ir (fn : BitVec 25) : (s.enterSysCall fn).ir = s.ir := rfl
@[simp] theorem State.enterSysCall_pair (fn : BitVec 25) : (s.enterSysCall fn).pair = s.pair := rfl
@[simp] theorem State.enterSysCall_lastExc (fn : BitVec 25) : (s.enterSysCall fn).lastExc = s.lastExc := rfl
@[simp] theorem State.enterSysCall_codeHist (fn : BitVec 25) : (s.enterSysCall fn).codeHist = s.codeHist := rfl
@[simp] theorem State.enterSysCall_ncRecent (fn : BitVec 25) : (s.enterSysCall fn).ncRecent = s.ncRecent := rfl
@[simp] theorem State.enterSysCall_early (fn : BitVec 25) : (s.enterSysCall fn).early = s.early := rfl
@[simp] theorem State.enterSysCall_earlyBroken (fn : BitVec 25) : (s.enterSysCall fn).earlyBroken = s.earlyBroken := rfl
@[simp] theorem State.enterSysCall_unflushed (fn : BitVec 25) : (s.enterSysCall fn).unflushed = s.unflushed := rfl
@[simp] theorem State.enterSysCall_dcDirty (fn : BitVec 25) : (s.enterSysCall fn).dcDirty = s.dcDirty := rfl
@[simp] theorem State.enterSysCall_disconnected (fn : BitVec 25) : (s.enterSysCall fn).disconnected = s.disconnected := rfl
@[simp] theorem State.enterSysCall_kinds (fn : BitVec 25) : (s.enterSysCall fn).kinds = s.kinds := rfl
@[simp] theorem State.enterSysCall_idaMatchWriter (fn : BitVec 25) :
    (s.enterSysCall fn).idaMatchWriter = s.idaMatchWriter := rfl
@[simp] theorem State.enterSysCall_idaMaskWriter (fn : BitVec 25) :
    (s.enterSysCall fn).idaMaskWriter = s.idaMaskWriter := rfl
@[simp] theorem State.enterSysCall_retJump (fn : BitVec 25) : (s.enterSysCall fn).retJump = s.retJump := rfl
@[simp] theorem State.enterSysCall_timerWild (fn : BitVec 25) : (s.enterSysCall fn).timerWild = s.timerWild := rfl
@[simp] theorem State.enterSysCall_lateErrors (fn : BitVec 25) : (s.enterSysCall fn).lateErrors = s.lateErrors := rfl
@[simp] theorem State.enterSysCall_dcErrors (fn : BitVec 25) : (s.enterSysCall fn).dcErrors = s.dcErrors := rfl
@[simp] theorem State.enterSysCall_armed (fn : BitVec 25) : (s.enterSysCall fn).armed = s.armed := rfl
@[simp] theorem State.enterSysCall_armedFetch (fn : BitVec 25) : (s.enterSysCall fn).armedFetch = s.armedFetch := rfl

/-! `writeReg` changes gpr or sr only, `writeV` vr and kinds only, `writeF` draws as well. -/

@[simp] theorem State.writeReg_pc (r : Reg) (v : Word) : (s.writeReg r v).pc = s.pc := by
  unfold State.writeReg; split <;> [rfl; (split <;> rfl)]
@[simp] theorem State.writeReg_vr (r : Reg) (v : Word) : (s.writeReg r v).vr = s.vr := by
  unfold State.writeReg; split <;> [rfl; (split <;> rfl)]
@[simp] theorem State.writeReg_fpcr (r : Reg) (v : Word) : (s.writeReg r v).fpcr = s.fpcr := by
  unfold State.writeReg; split <;> [rfl; (split <;> rfl)]
@[simp] theorem State.writeReg_lock (r : Reg) (v : Word) : (s.writeReg r v).lock = s.lock := by
  unfold State.writeReg; split <;> [rfl; (split <;> rfl)]
@[simp] theorem State.writeReg_coreState (r : Reg) (v : Word) : (s.writeReg r v).coreState = s.coreState := by
  unfold State.writeReg; split <;> [rfl; (split <;> rfl)]
@[simp] theorem State.writeReg_mem (r : Reg) (v : Word) : (s.writeReg r v).mem = s.mem := by
  unfold State.writeReg; split <;> [rfl; (split <;> rfl)]
@[simp] theorem State.writeReg_ibox (r : Reg) (v : Word) : (s.writeReg r v).ibox = s.ibox := by
  unfold State.writeReg; split <;> [rfl; (split <;> rfl)]
@[simp] theorem State.writeReg_dbox (r : Reg) (v : Word) : (s.writeReg r v).dbox = s.dbox := by
  unfold State.writeReg; split <;> [rfl; (split <;> rfl)]
@[simp] theorem State.writeReg_sbox (r : Reg) (v : Word) : (s.writeReg r v).sbox = s.sbox := by
  unfold State.writeReg; split <;> [rfl; (split <;> rfl)]
@[simp] theorem State.writeReg_ebox (r : Reg) (v : Word) : (s.writeReg r v).ebox = s.ebox := by
  unfold State.writeReg; split <;> [rfl; (split <;> rfl)]
@[simp] theorem State.writeReg_itb (r : Reg) (v : Word) : (s.writeReg r v).itb = s.itb := by
  unfold State.writeReg; split <;> [rfl; (split <;> rfl)]
@[simp] theorem State.writeReg_dtb (r : Reg) (v : Word) : (s.writeReg r v).dtb = s.dtb := by
  unfold State.writeReg; split <;> [rfl; (split <;> rfl)]
@[simp] theorem State.writeReg_icache (r : Reg) (v : Word) : (s.writeReg r v).icache = s.icache := by
  unfold State.writeReg; split <;> [rfl; (split <;> rfl)]
@[simp] theorem State.writeReg_timerCount (r : Reg) (v : Word) : (s.writeReg r v).timerCount = s.timerCount := by
  unfold State.writeReg; split <;> [rfl; (split <;> rfl)]
@[simp] theorem State.writeReg_hserrTime (r : Reg) (v : Word) : (s.writeReg r v).hserrTime = s.hserrTime := by
  unfold State.writeReg; split <;> [rfl; (split <;> rfl)]
@[simp] theorem State.writeReg_mergeWait (r : Reg) (v : Word) : (s.writeReg r v).mergeWait = s.mergeWait := by
  unfold State.writeReg; split <;> [rfl; (split <;> rfl)]
@[simp] theorem State.writeReg_sleepBreak (r : Reg) (v : Word) : (s.writeReg r v).sleepBreak = s.sleepBreak := by
  unfold State.writeReg; split <;> [rfl; (split <;> rfl)]
@[simp] theorem State.writeReg_ior (r : Reg) (v : Word) : (s.writeReg r v).ior = s.ior := by
  unfold State.writeReg; split <;> [rfl; (split <;> rfl)]
@[simp] theorem State.writeReg_plat (r : Reg) (v : Word) : (s.writeReg r v).plat = s.plat := by
  unfold State.writeReg; split <;> [rfl; (split <;> rfl)]
@[simp] theorem State.writeReg_draws (r : Reg) (v : Word) : (s.writeReg r v).draws = s.draws := by
  unfold State.writeReg; split <;> [rfl; (split <;> rfl)]
@[simp] theorem State.writeReg_inputs (r : Reg) (v : Word) : (s.writeReg r v).inputs = s.inputs := by
  unfold State.writeReg; split <;> [rfl; (split <;> rfl)]
@[simp] theorem State.writeReg_outputs (r : Reg) (v : Word) : (s.writeReg r v).outputs = s.outputs := by
  unfold State.writeReg; split <;> [rfl; (split <;> rfl)]
@[simp] theorem State.writeReg_ir (r : Reg) (v : Word) : (s.writeReg r v).ir = s.ir := by
  unfold State.writeReg; split <;> [rfl; (split <;> rfl)]
@[simp] theorem State.writeReg_pair (r : Reg) (v : Word) : (s.writeReg r v).pair = s.pair := by
  unfold State.writeReg; split <;> [rfl; (split <;> rfl)]
@[simp] theorem State.writeReg_lastExc (r : Reg) (v : Word) : (s.writeReg r v).lastExc = s.lastExc := by
  unfold State.writeReg; split <;> [rfl; (split <;> rfl)]
@[simp] theorem State.writeReg_codeHist (r : Reg) (v : Word) : (s.writeReg r v).codeHist = s.codeHist := by
  unfold State.writeReg; split <;> [rfl; (split <;> rfl)]
@[simp] theorem State.writeReg_ncRecent (r : Reg) (v : Word) : (s.writeReg r v).ncRecent = s.ncRecent := by
  unfold State.writeReg; split <;> [rfl; (split <;> rfl)]
@[simp] theorem State.writeReg_early (r : Reg) (v : Word) : (s.writeReg r v).early = s.early := by
  unfold State.writeReg; split <;> [rfl; (split <;> rfl)]
@[simp] theorem State.writeReg_earlyBroken (r : Reg) (v : Word) : (s.writeReg r v).earlyBroken = s.earlyBroken := by
  unfold State.writeReg; split <;> [rfl; (split <;> rfl)]
@[simp] theorem State.writeReg_unflushed (r : Reg) (v : Word) : (s.writeReg r v).unflushed = s.unflushed := by
  unfold State.writeReg; split <;> [rfl; (split <;> rfl)]
@[simp] theorem State.writeReg_dcDirty (r : Reg) (v : Word) : (s.writeReg r v).dcDirty = s.dcDirty := by
  unfold State.writeReg; split <;> [rfl; (split <;> rfl)]
@[simp] theorem State.writeReg_disconnected (r : Reg) (v : Word) : (s.writeReg r v).disconnected = s.disconnected := by
  unfold State.writeReg; split <;> [rfl; (split <;> rfl)]
@[simp] theorem State.writeReg_kinds (r : Reg) (v : Word) : (s.writeReg r v).kinds = s.kinds := by
  unfold State.writeReg; split <;> [rfl; (split <;> rfl)]
@[simp] theorem State.writeReg_idaMatchWriter (r : Reg) (v : Word) : (s.writeReg r v).idaMatchWriter = s.idaMatchWriter := by
  unfold State.writeReg; split <;> [rfl; (split <;> rfl)]
@[simp] theorem State.writeReg_idaMaskWriter (r : Reg) (v : Word) : (s.writeReg r v).idaMaskWriter = s.idaMaskWriter := by
  unfold State.writeReg; split <;> [rfl; (split <;> rfl)]
@[simp] theorem State.writeReg_retJump (r : Reg) (v : Word) : (s.writeReg r v).retJump = s.retJump := by
  unfold State.writeReg; split <;> [rfl; (split <;> rfl)]
@[simp] theorem State.writeReg_timerWild (r : Reg) (v : Word) : (s.writeReg r v).timerWild = s.timerWild := by
  unfold State.writeReg; split <;> [rfl; (split <;> rfl)]
@[simp] theorem State.writeReg_lateErrors (r : Reg) (v : Word) : (s.writeReg r v).lateErrors = s.lateErrors := by
  unfold State.writeReg; split <;> [rfl; (split <;> rfl)]
@[simp] theorem State.writeReg_dcErrors (r : Reg) (v : Word) : (s.writeReg r v).dcErrors = s.dcErrors := by
  unfold State.writeReg; split <;> [rfl; (split <;> rfl)]
@[simp] theorem State.writeReg_armed (r : Reg) (v : Word) : (s.writeReg r v).armed = s.armed := by
  unfold State.writeReg; split <;> [rfl; (split <;> rfl)]
@[simp] theorem State.writeReg_armedFetch (r : Reg) (v : Word) : (s.writeReg r v).armedFetch = s.armedFetch := by
  unfold State.writeReg; split <;> [rfl; (split <;> rfl)]

@[simp] theorem State.writeV_pc (r : Reg) (v : Vec) (k : DataKind) : (s.writeV r v k).pc = s.pc := by
  unfold State.writeV; split <;> rfl
@[simp] theorem State.writeV_gpr (r : Reg) (v : Vec) (k : DataKind) : (s.writeV r v k).gpr = s.gpr := by
  unfold State.writeV; split <;> rfl
@[simp] theorem State.writeV_sr (r : Reg) (v : Vec) (k : DataKind) : (s.writeV r v k).sr = s.sr := by
  unfold State.writeV; split <;> rfl
@[simp] theorem State.writeV_fpcr (r : Reg) (v : Vec) (k : DataKind) : (s.writeV r v k).fpcr = s.fpcr := by
  unfold State.writeV; split <;> rfl
@[simp] theorem State.writeV_lock (r : Reg) (v : Vec) (k : DataKind) : (s.writeV r v k).lock = s.lock := by
  unfold State.writeV; split <;> rfl
@[simp] theorem State.writeV_coreState (r : Reg) (v : Vec) (k : DataKind) : (s.writeV r v k).coreState = s.coreState := by
  unfold State.writeV; split <;> rfl
@[simp] theorem State.writeV_mem (r : Reg) (v : Vec) (k : DataKind) : (s.writeV r v k).mem = s.mem := by
  unfold State.writeV; split <;> rfl
@[simp] theorem State.writeV_ibox (r : Reg) (v : Vec) (k : DataKind) : (s.writeV r v k).ibox = s.ibox := by
  unfold State.writeV; split <;> rfl
@[simp] theorem State.writeV_dbox (r : Reg) (v : Vec) (k : DataKind) : (s.writeV r v k).dbox = s.dbox := by
  unfold State.writeV; split <;> rfl
@[simp] theorem State.writeV_sbox (r : Reg) (v : Vec) (k : DataKind) : (s.writeV r v k).sbox = s.sbox := by
  unfold State.writeV; split <;> rfl
@[simp] theorem State.writeV_ebox (r : Reg) (v : Vec) (k : DataKind) : (s.writeV r v k).ebox = s.ebox := by
  unfold State.writeV; split <;> rfl
@[simp] theorem State.writeV_itb (r : Reg) (v : Vec) (k : DataKind) : (s.writeV r v k).itb = s.itb := by
  unfold State.writeV; split <;> rfl
@[simp] theorem State.writeV_dtb (r : Reg) (v : Vec) (k : DataKind) : (s.writeV r v k).dtb = s.dtb := by
  unfold State.writeV; split <;> rfl
@[simp] theorem State.writeV_icache (r : Reg) (v : Vec) (k : DataKind) : (s.writeV r v k).icache = s.icache := by
  unfold State.writeV; split <;> rfl
@[simp] theorem State.writeV_timerCount (r : Reg) (v : Vec) (k : DataKind) : (s.writeV r v k).timerCount = s.timerCount := by
  unfold State.writeV; split <;> rfl
@[simp] theorem State.writeV_hserrTime (r : Reg) (v : Vec) (k : DataKind) : (s.writeV r v k).hserrTime = s.hserrTime := by
  unfold State.writeV; split <;> rfl
@[simp] theorem State.writeV_mergeWait (r : Reg) (v : Vec) (k : DataKind) : (s.writeV r v k).mergeWait = s.mergeWait := by
  unfold State.writeV; split <;> rfl
@[simp] theorem State.writeV_sleepBreak (r : Reg) (v : Vec) (k : DataKind) : (s.writeV r v k).sleepBreak = s.sleepBreak := by
  unfold State.writeV; split <;> rfl
@[simp] theorem State.writeV_ior (r : Reg) (v : Vec) (k : DataKind) : (s.writeV r v k).ior = s.ior := by
  unfold State.writeV; split <;> rfl
@[simp] theorem State.writeV_plat (r : Reg) (v : Vec) (k : DataKind) : (s.writeV r v k).plat = s.plat := by
  unfold State.writeV; split <;> rfl
@[simp] theorem State.writeV_draws (r : Reg) (v : Vec) (k : DataKind) : (s.writeV r v k).draws = s.draws := by
  unfold State.writeV; split <;> rfl
@[simp] theorem State.writeV_inputs (r : Reg) (v : Vec) (k : DataKind) : (s.writeV r v k).inputs = s.inputs := by
  unfold State.writeV; split <;> rfl
@[simp] theorem State.writeV_outputs (r : Reg) (v : Vec) (k : DataKind) : (s.writeV r v k).outputs = s.outputs := by
  unfold State.writeV; split <;> rfl
@[simp] theorem State.writeV_ir (r : Reg) (v : Vec) (k : DataKind) : (s.writeV r v k).ir = s.ir := by
  unfold State.writeV; split <;> rfl
@[simp] theorem State.writeV_pair (r : Reg) (v : Vec) (k : DataKind) : (s.writeV r v k).pair = s.pair := by
  unfold State.writeV; split <;> rfl
@[simp] theorem State.writeV_lastExc (r : Reg) (v : Vec) (k : DataKind) : (s.writeV r v k).lastExc = s.lastExc := by
  unfold State.writeV; split <;> rfl
@[simp] theorem State.writeV_codeHist (r : Reg) (v : Vec) (k : DataKind) : (s.writeV r v k).codeHist = s.codeHist := by
  unfold State.writeV; split <;> rfl
@[simp] theorem State.writeV_ncRecent (r : Reg) (v : Vec) (k : DataKind) : (s.writeV r v k).ncRecent = s.ncRecent := by
  unfold State.writeV; split <;> rfl
@[simp] theorem State.writeV_early (r : Reg) (v : Vec) (k : DataKind) : (s.writeV r v k).early = s.early := by
  unfold State.writeV; split <;> rfl
@[simp] theorem State.writeV_earlyBroken (r : Reg) (v : Vec) (k : DataKind) : (s.writeV r v k).earlyBroken = s.earlyBroken := by
  unfold State.writeV; split <;> rfl
@[simp] theorem State.writeV_unflushed (r : Reg) (v : Vec) (k : DataKind) : (s.writeV r v k).unflushed = s.unflushed := by
  unfold State.writeV; split <;> rfl
@[simp] theorem State.writeV_dcDirty (r : Reg) (v : Vec) (k : DataKind) : (s.writeV r v k).dcDirty = s.dcDirty := by
  unfold State.writeV; split <;> rfl
@[simp] theorem State.writeV_disconnected (r : Reg) (v : Vec) (k : DataKind) : (s.writeV r v k).disconnected = s.disconnected := by
  unfold State.writeV; split <;> rfl
@[simp] theorem State.writeV_idaMatchWriter (r : Reg) (v : Vec) (k : DataKind) : (s.writeV r v k).idaMatchWriter = s.idaMatchWriter := by
  unfold State.writeV; split <;> rfl
@[simp] theorem State.writeV_idaMaskWriter (r : Reg) (v : Vec) (k : DataKind) : (s.writeV r v k).idaMaskWriter = s.idaMaskWriter := by
  unfold State.writeV; split <;> rfl
@[simp] theorem State.writeV_retJump (r : Reg) (v : Vec) (k : DataKind) : (s.writeV r v k).retJump = s.retJump := by
  unfold State.writeV; split <;> rfl
@[simp] theorem State.writeV_timerWild (r : Reg) (v : Vec) (k : DataKind) : (s.writeV r v k).timerWild = s.timerWild := by
  unfold State.writeV; split <;> rfl
@[simp] theorem State.writeV_lateErrors (r : Reg) (v : Vec) (k : DataKind) : (s.writeV r v k).lateErrors = s.lateErrors := by
  unfold State.writeV; split <;> rfl
@[simp] theorem State.writeV_dcErrors (r : Reg) (v : Vec) (k : DataKind) : (s.writeV r v k).dcErrors = s.dcErrors := by
  unfold State.writeV; split <;> rfl
@[simp] theorem State.writeV_armed (r : Reg) (v : Vec) (k : DataKind) : (s.writeV r v k).armed = s.armed := by
  unfold State.writeV; split <;> rfl
@[simp] theorem State.writeV_armedFetch (r : Reg) (v : Vec) (k : DataKind) : (s.writeV r v k).armedFetch = s.armedFetch := by
  unfold State.writeV; split <;> rfl

@[simp] theorem State.writeF_pc (r : Reg) (v : Word) (k : DataKind) : (s.writeF r v k).pc = s.pc := by
  unfold State.writeF; split <;> simp
@[simp] theorem State.writeF_gpr (r : Reg) (v : Word) (k : DataKind) : (s.writeF r v k).gpr = s.gpr := by
  unfold State.writeF; split <;> simp
@[simp] theorem State.writeF_sr (r : Reg) (v : Word) (k : DataKind) : (s.writeF r v k).sr = s.sr := by
  unfold State.writeF; split <;> simp
@[simp] theorem State.writeF_fpcr (r : Reg) (v : Word) (k : DataKind) : (s.writeF r v k).fpcr = s.fpcr := by
  unfold State.writeF; split <;> simp
@[simp] theorem State.writeF_lock (r : Reg) (v : Word) (k : DataKind) : (s.writeF r v k).lock = s.lock := by
  unfold State.writeF; split <;> simp
@[simp] theorem State.writeF_coreState (r : Reg) (v : Word) (k : DataKind) : (s.writeF r v k).coreState = s.coreState := by
  unfold State.writeF; split <;> simp
@[simp] theorem State.writeF_mem (r : Reg) (v : Word) (k : DataKind) : (s.writeF r v k).mem = s.mem := by
  unfold State.writeF; split <;> simp
@[simp] theorem State.writeF_ibox (r : Reg) (v : Word) (k : DataKind) : (s.writeF r v k).ibox = s.ibox := by
  unfold State.writeF; split <;> simp
@[simp] theorem State.writeF_dbox (r : Reg) (v : Word) (k : DataKind) : (s.writeF r v k).dbox = s.dbox := by
  unfold State.writeF; split <;> simp
@[simp] theorem State.writeF_sbox (r : Reg) (v : Word) (k : DataKind) : (s.writeF r v k).sbox = s.sbox := by
  unfold State.writeF; split <;> simp
@[simp] theorem State.writeF_ebox (r : Reg) (v : Word) (k : DataKind) : (s.writeF r v k).ebox = s.ebox := by
  unfold State.writeF; split <;> simp
@[simp] theorem State.writeF_itb (r : Reg) (v : Word) (k : DataKind) : (s.writeF r v k).itb = s.itb := by
  unfold State.writeF; split <;> simp
@[simp] theorem State.writeF_dtb (r : Reg) (v : Word) (k : DataKind) : (s.writeF r v k).dtb = s.dtb := by
  unfold State.writeF; split <;> simp
@[simp] theorem State.writeF_icache (r : Reg) (v : Word) (k : DataKind) : (s.writeF r v k).icache = s.icache := by
  unfold State.writeF; split <;> simp
@[simp] theorem State.writeF_timerCount (r : Reg) (v : Word) (k : DataKind) : (s.writeF r v k).timerCount = s.timerCount := by
  unfold State.writeF; split <;> simp
@[simp] theorem State.writeF_hserrTime (r : Reg) (v : Word) (k : DataKind) : (s.writeF r v k).hserrTime = s.hserrTime := by
  unfold State.writeF; split <;> simp
@[simp] theorem State.writeF_mergeWait (r : Reg) (v : Word) (k : DataKind) : (s.writeF r v k).mergeWait = s.mergeWait := by
  unfold State.writeF; split <;> simp
@[simp] theorem State.writeF_sleepBreak (r : Reg) (v : Word) (k : DataKind) : (s.writeF r v k).sleepBreak = s.sleepBreak := by
  unfold State.writeF; split <;> simp
@[simp] theorem State.writeF_ior (r : Reg) (v : Word) (k : DataKind) : (s.writeF r v k).ior = s.ior := by
  unfold State.writeF; split <;> simp
@[simp] theorem State.writeF_plat (r : Reg) (v : Word) (k : DataKind) : (s.writeF r v k).plat = s.plat := by
  unfold State.writeF; split <;> simp
@[simp] theorem State.writeF_inputs (r : Reg) (v : Word) (k : DataKind) : (s.writeF r v k).inputs = s.inputs := by
  unfold State.writeF; split <;> simp
@[simp] theorem State.writeF_outputs (r : Reg) (v : Word) (k : DataKind) : (s.writeF r v k).outputs = s.outputs := by
  unfold State.writeF; split <;> simp
@[simp] theorem State.writeF_ir (r : Reg) (v : Word) (k : DataKind) : (s.writeF r v k).ir = s.ir := by
  unfold State.writeF; split <;> simp
@[simp] theorem State.writeF_pair (r : Reg) (v : Word) (k : DataKind) : (s.writeF r v k).pair = s.pair := by
  unfold State.writeF; split <;> simp
@[simp] theorem State.writeF_lastExc (r : Reg) (v : Word) (k : DataKind) : (s.writeF r v k).lastExc = s.lastExc := by
  unfold State.writeF; split <;> simp
@[simp] theorem State.writeF_codeHist (r : Reg) (v : Word) (k : DataKind) : (s.writeF r v k).codeHist = s.codeHist := by
  unfold State.writeF; split <;> simp
@[simp] theorem State.writeF_ncRecent (r : Reg) (v : Word) (k : DataKind) : (s.writeF r v k).ncRecent = s.ncRecent := by
  unfold State.writeF; split <;> simp
@[simp] theorem State.writeF_early (r : Reg) (v : Word) (k : DataKind) : (s.writeF r v k).early = s.early := by
  unfold State.writeF; split <;> simp
@[simp] theorem State.writeF_earlyBroken (r : Reg) (v : Word) (k : DataKind) : (s.writeF r v k).earlyBroken = s.earlyBroken := by
  unfold State.writeF; split <;> simp
@[simp] theorem State.writeF_unflushed (r : Reg) (v : Word) (k : DataKind) : (s.writeF r v k).unflushed = s.unflushed := by
  unfold State.writeF; split <;> simp
@[simp] theorem State.writeF_dcDirty (r : Reg) (v : Word) (k : DataKind) : (s.writeF r v k).dcDirty = s.dcDirty := by
  unfold State.writeF; split <;> simp
@[simp] theorem State.writeF_disconnected (r : Reg) (v : Word) (k : DataKind) : (s.writeF r v k).disconnected = s.disconnected := by
  unfold State.writeF; split <;> simp
@[simp] theorem State.writeF_idaMatchWriter (r : Reg) (v : Word) (k : DataKind) : (s.writeF r v k).idaMatchWriter = s.idaMatchWriter := by
  unfold State.writeF; split <;> simp
@[simp] theorem State.writeF_idaMaskWriter (r : Reg) (v : Word) (k : DataKind) : (s.writeF r v k).idaMaskWriter = s.idaMaskWriter := by
  unfold State.writeF; split <;> simp
@[simp] theorem State.writeF_retJump (r : Reg) (v : Word) (k : DataKind) : (s.writeF r v k).retJump = s.retJump := by
  unfold State.writeF; split <;> simp
@[simp] theorem State.writeF_timerWild (r : Reg) (v : Word) (k : DataKind) : (s.writeF r v k).timerWild = s.timerWild := by
  unfold State.writeF; split <;> simp
@[simp] theorem State.writeF_lateErrors (r : Reg) (v : Word) (k : DataKind) : (s.writeF r v k).lateErrors = s.lateErrors := by
  unfold State.writeF; split <;> simp
@[simp] theorem State.writeF_dcErrors (r : Reg) (v : Word) (k : DataKind) : (s.writeF r v k).dcErrors = s.dcErrors := by
  unfold State.writeF; split <;> simp
@[simp] theorem State.writeF_armed (r : Reg) (v : Word) (k : DataKind) : (s.writeF r v k).armed = s.armed := by
  unfold State.writeF; split <;> simp
@[simp] theorem State.writeF_armedFetch (r : Reg) (v : Word) (k : DataKind) : (s.writeF r v k).armedFetch = s.armedFetch := by
  unfold State.writeF; split <;> simp

end Sys2Proof.Machine
end

