-- ==== Sys2Proof/Laws/Memory.lean ====
section
/-! SUPPORT. The laws of memory: reads after writes, and that every memory operation keeps the canonical form. -/

namespace Sys2Proof.Machine

/-! ## The canonical form -/

theorem wfFrom_cons (lo k : Nat) (v : Byte) (m : List Host.Cell) :
    Memory.wfFrom lo ((k, v) :: m) = true ↔ lo ≤ k ∧ k < 2 ^ 46 ∧ v ≠ 0 ∧ Memory.wfFrom (k + 1) m = true := by
  simp [Memory.wfFrom, and_assoc]

theorem wfFrom_mono {lo lo' : Nat} {m : List Host.Cell} (h : lo' ≤ lo) (hw : Memory.wfFrom lo m = true) :
    Memory.wfFrom lo' m = true := by
  cases m with
  | nil => rfl
  | cons c m =>
    obtain ⟨k, v⟩ := c
    rw [wfFrom_cons] at hw ⊢
    exact ⟨by omega, hw.2⟩

/-- Nothing below the bound is listed. -/
theorem memRead_below {lo a : Nat} {m : List Host.Cell} (hw : Memory.wfFrom lo m = true) (h : a < lo) :
    memRead m a = 0 := by
  induction m generalizing lo with
  | nil => rfl
  | cons c m ih =>
    obtain ⟨k, v⟩ := c
    rw [wfFrom_cons] at hw
    rw [memRead, if_neg (by omega)]
    exact ih hw.2.2.2 (by omega)

theorem memWrite_wfFrom {lo a : Nat} {m : List Host.Cell} (v : Byte) (hw : Memory.wfFrom lo m = true) (h : lo ≤ a)
    (ha : a < 2 ^ 46) : Memory.wfFrom lo (memWrite m a v) = true := by
  induction m generalizing lo with
  | nil =>
    rw [memWrite]
    split
    · rfl
    · rw [wfFrom_cons]; exact ⟨h, ha, ‹_›, rfl⟩
  | cons c m ih =>
    obtain ⟨k, x⟩ := c
    have hc := (wfFrom_cons lo k x m).mp hw
    rw [memWrite]
    split
    · split
      · exact hw
      · rw [wfFrom_cons, wfFrom_cons]; exact ⟨h, ha, ‹_›, by omega, hc.2⟩
    · split
      · split
        · exact wfFrom_mono (by omega) hc.2.2.2
        · subst a; rw [wfFrom_cons]; exact ⟨hc.1, hc.2.1, ‹_›, hc.2.2.2⟩
      · rw [wfFrom_cons]; exact ⟨hc.1, hc.2.1, hc.2.2.1, ih hc.2.2.2 (by omega)⟩

/-- Writing one byte keeps the canonical form. -/
theorem memWrite_wf {a : Nat} {m : List Host.Cell} (v : Byte) (hw : Memory.wf m = true) (ha : a < 2 ^ 46) :
    Memory.wf (memWrite m a v) = true := memWrite_wfFrom v hw (Nat.zero_le a) ha

/-- Writing `n` bytes keeps the canonical form. -/
theorem writeBytes_wf {a : Nat} {m : List Host.Cell} (n : Nat) (v : Vec) (hw : Memory.wf m = true)
    (ha : a + n ≤ 2 ^ 46) : Memory.wf (writeBytes m a n v) = true := by
  induction n with
  | zero => exact hw
  | succ n ih => exact memWrite_wf _ (ih (by omega)) (by omega)

/-- Bytes written one after the other keep the canonical form. -/
theorem writeCells_wf {m : List Host.Cell} {size : Nat} (cs : List Host.Cell) (hs : size ≤ 2 ^ 46)
    (hw : Memory.wf m = true) : Memory.wf (writeCells m size cs) = true := by
  induction cs generalizing m with
  | nil => exact hw
  | cons c cs ih =>
    refine ih ?_
    split
    · exact memWrite_wf _ hw (by omega)
    · exact hw

/-- Bytes lost keep the canonical form. -/
theorem loseBytes_wf {m : List Host.Cell} (draws : Nat) (l : List Nat) (hw : Memory.wf m = true) :
    Memory.wf (loseBytes m draws l) = true := by
  induction l generalizing m draws with
  | nil => exact hw
  | cons a l ih =>
    refine ih _ ?_
    split
    · exact memWrite_wf _ hw ‹_›
    · exact hw

theorem reset_mem_wf : Memory.wf State.reset.mem = true := rfl

/-! ## What the memory system changes -/

/-- The state without all that an access to memory or I/O space, and an error met there, may change: memory, the stores
that wait or were early, the instruction cache's lines and the old words, the merge window, the I/O registers, and the
records of errors. Two states equal here differ in nothing else. -/
def State.withoutMemory (s : State) : State :=
  { s with
    mem := [], codeHist := [], icache := [], ncRecent := [], early := [], earlyBroken := false, unflushed := [], dcDirty := [],
    mergeWait := none, ior := .reset, outputs := [], draws := 0, dcErrors := [], armed := none, lateErrors := []
    ibox := { s.ibox with pending := 0, hserrCnt := 0, iiMail := 0 }
    sbox := { s.sbox with scStat := 0 }
    dbox := { s.dbox with dcStat := 0 } }

section
variable (s : State)

@[simp] theorem withoutMemory_drawn : s.drawn.withoutMemory = s.withoutMemory := rfl
@[simp] theorem withoutMemory_send (e : OutEvent) : (s.send e).withoutMemory = s.withoutMemory := rfl
@[simp] theorem withoutMemory_setPending (n : BitVec 8) : (s.setPending n).withoutMemory = s.withoutMemory := rfl
@[simp] theorem withoutMemory_mchkRequest : s.mchkRequest.withoutMemory = s.withoutMemory := rfl
@[simp] theorem withoutMemory_setScStat (i : Nat) : (s.setScStat i).withoutMemory = s.withoutMemory := rfl
@[simp] theorem withoutMemory_setDcStat (i : Nat) : (s.setDcStat i).withoutMemory = s.withoutMemory := rfl
@[simp] theorem withoutMemory_damage (a n : Nat) : (s.damage a n).withoutMemory = s.withoutMemory := rfl
@[simp] theorem withoutMemory_closeMerge : s.closeMerge.withoutMemory = s.withoutMemory := rfl
@[simp] theorem withoutMemory_mergeStore (b : Bool) : (s.mergeStore b).withoutMemory = s.withoutMemory := rfl
@[simp] theorem withoutMemory_settle : s.settle.withoutMemory = s.withoutMemory := rfl
@[simp] theorem withoutMemory_settleAt (a n : Nat) : (s.settleAt a n).withoutMemory = s.withoutMemory := rfl
@[simp] theorem withoutMemory_orderedBefore (a n : Nat) : (s.orderedBefore a n).withoutMemory = s.withoutMemory := rfl
@[simp] theorem withoutMemory_putBytes (a n : Nat) (v : Vec) : (s.putBytes a n v).withoutMemory = s.withoutMemory := rfl
@[simp] theorem withoutMemory_lineClean (l : Nat) : (s.lineClean l).withoutMemory = s.withoutMemory := rfl
@[simp] theorem withoutMemory_recounted (l : Nat) : (s.recounted l).withoutMemory = s.withoutMemory := rfl
@[simp] theorem withoutMemory_cached (a n : Nat) : (s.cached a n).withoutMemory = s.withoutMemory := rfl
@[simp] theorem withoutMemory_uncached (a n : Nat) : (s.uncached a n).withoutMemory = s.withoutMemory := rfl
@[simp] theorem withoutMemory_forceErrors (a n : Nat) : (s.forceErrors a n).withoutMemory = s.withoutMemory := rfl
@[simp] theorem withoutMemory_lateWriteError (b : BitVec 5) : (s.lateWriteError b).withoutMemory = s.withoutMemory := rfl

@[simp] theorem mem_forceErrors (a n : Nat) : (s.forceErrors a n).mem = s.mem := rfl
@[simp] theorem mem_cached (a n : Nat) : (s.cached a n).mem = s.mem := rfl
@[simp] theorem mem_recounted (l : Nat) : (s.recounted l).mem = s.mem := rfl
@[simp] theorem mem_setScStat (i : Nat) : (s.setScStat i).mem = s.mem := rfl
@[simp] theorem mem_setDcStat (i : Nat) : (s.setDcStat i).mem = s.mem := rfl
@[simp] theorem mem_mchkRequest : s.mchkRequest.mem = s.mem := rfl

@[simp] theorem withoutMemory_forceFill (a : Nat) : (s.forceFill a).withoutMemory = s.withoutMemory := by
  unfold State.forceFill; split <;> [rfl; (split <;> rfl)]

@[simp] theorem mem_forceFill (a : Nat) : (s.forceFill a).mem = s.mem := by
  unfold State.forceFill; split <;> [rfl; (split <;> rfl)]

@[simp] theorem withoutMemory_countCorrected : s.countCorrected.withoutMemory = s.withoutMemory := by
  unfold State.countCorrected; dsimp only; split <;> rfl

@[simp] theorem mem_countCorrected : s.countCorrected.mem = s.mem := by
  unfold State.countCorrected; dsimp only; split <;> rfl

@[simp] theorem withoutMemory_scError (i : Nat) : (s.scError i).withoutMemory = s.withoutMemory := by
  simp only [State.scError, apply_ite State.withoutMemory, withoutMemory_send, withoutMemory_mchkRequest,
    withoutMemory_countCorrected, withoutMemory_setScStat, ite_self]

@[simp] theorem mem_scError (i : Nat) : (s.scError i).mem = s.mem := by
  simp only [State.scError, apply_ite State.mem, State.send_mem, mem_mchkRequest, mem_countCorrected, mem_setScStat,
    ite_self]

@[simp] theorem withoutMemory_cellLeaves (e : CellError) : (s.cellLeaves e).withoutMemory = s.withoutMemory := by
  unfold State.cellLeaves; split <;> [rfl; (split <;> simp)]

@[simp] theorem withoutMemory_storeMeets (a n : Nat) (e : CellError) :
    (State.storeMeets a n s e).withoutMemory = s.withoutMemory := by
  unfold State.storeMeets; dsimp only; repeat' split
  all_goals simp

end

theorem foldl_withoutMemory {f : State → CellError → State} (hf : ∀ s e, (f s e).withoutMemory = s.withoutMemory)
    (es : List CellError) (s : State) : (es.foldl f s).withoutMemory = s.withoutMemory := by
  induction es generalizing s with
  | nil => rfl
  | cons e es ih => exact (ih _).trans (hf s e)

theorem foldl_wf {f : State → CellError → State}
    (hf : ∀ s e, Memory.wf s.mem = true → Memory.wf (f s e).mem = true) (es : List CellError) {s : State}
    (hw : Memory.wf s.mem = true) : Memory.wf (es.foldl f s).mem = true := by
  induction es generalizing s with
  | nil => exact hw
  | cons e es ih => exact ih (hf s e hw)

@[simp] theorem withoutMemory_linesLeave (s : State) (gone : List Nat) :
    (s.linesLeave gone).withoutMemory = s.withoutMemory :=
  foldl_withoutMemory withoutMemory_cellLeaves _ { s with dcErrors := s.dcErrors.filter fun e => !gone.contains e.line }

@[simp] theorem withoutMemory_lineLeaves (s : State) (l : Nat) : (s.lineLeaves l).withoutMemory = s.withoutMemory :=
  withoutMemory_linesLeave s [l]

@[simp] theorem withoutMemory_flushLine (s : State) (l : Nat) : (s.flushLine l).withoutMemory = s.withoutMemory := by
  unfold State.flushLine; split
  · dsimp only; rw [withoutMemory_recounted, withoutMemory_linesLeave]; rfl
  · simp

@[simp] theorem withoutMemory_replaceLines (s : State) (a : Nat) :
    (s.replaceLines a).withoutMemory = s.withoutMemory := by
  unfold State.replaceLines; dsimp only; split
  · rfl
  · rw [withoutMemory_linesLeave]; rfl

@[simp] theorem withoutMemory_fillLine (s : State) (a : Nat) : (s.fillLine a).withoutMemory = s.withoutMemory := by
  simp [State.fillLine]

@[simp] theorem withoutMemory_storeErrors (s : State) (a n : Nat) :
    (s.storeErrors a n).withoutMemory = s.withoutMemory := by
  unfold State.storeErrors
  split
  · rfl
  · rw [foldl_withoutMemory fun s e => withoutMemory_storeMeets s a n e]; rfl

@[simp] theorem withoutMemory_putNow (s : State) (a n : Nat) (v : Vec) :
    (s.putNow a n v).withoutMemory = s.withoutMemory := by
  unfold State.putNow State.putUnder; split <;> rfl

@[simp] theorem withoutMemory_putDrawn (s : State) (a n : Nat) (v : Vec) :
    (s.putDrawn a n v).withoutMemory = s.withoutMemory := by
  unfold State.putDrawn; split <;> simp

@[simp] theorem withoutMemory_putWaiting (s : State) (a n : Nat) (v : Vec) :
    (s.putWaiting a n v).withoutMemory = s.withoutMemory := withoutMemory_lineLeaves s (a / 128)

@[simp] theorem withoutMemory_putEarly (s : State) (p : EarlyStore) :
    (s.putEarly p).withoutMemory = s.withoutMemory := withoutMemory_lineLeaves s (p.addr / 128)

@[simp] theorem withoutMemory_earlyComes (s : State) (p : EarlyDone) (ps : List EarlyDone) (b : Bool) :
    (s.earlyComes p ps b).withoutMemory = s.withoutMemory := rfl

@[simp] theorem withoutMemory_ncStore (s : State) (a n : Nat) (v : Vec) :
    (s.ncStore a n v).withoutMemory = s.withoutMemory := by
  unfold State.ncStore; split
  · rfl
  · simp

@[simp] theorem withoutMemory_ioStore (s : State) (pa : PAddr) (n : Nat) (x : Word) (r : Ior) :
    (s.ioStore pa n x r).withoutMemory = s.withoutMemory := by
  unfold State.ioStore; cases r <;> dsimp only
  case mailBox => repeat' split
                  all_goals rfl
  all_goals rfl

@[simp] theorem withoutMemory_ioLoad (s : State) (pa : PAddr) (n : Nat) (r : Ior) :
    (s.ioLoad pa n r).2.withoutMemory = s.withoutMemory := by
  unfold State.ioLoad; cases r <;> dsimp only
  case mailBox => split <;> rfl
  all_goals rfl

/-- A read changes nothing but what `withoutMemory` leaves out. -/
@[simp] theorem withoutMemory_loadPhys (s : State) (pa : PAddr) (n : Nat) (nc : Bool) :
    (s.loadPhys pa n nc).2.withoutMemory = s.withoutMemory := by
  unfold State.loadPhys
  split
  · split
    · unfold State.ioAnswer; split
      · exact withoutMemory_ioLoad _ _ _ _
      · simp
    · rfl
  · unfold State.memLoad; dsimp only; repeat' split
    all_goals simp

/-- A write changes nothing but what `withoutMemory` leaves out. -/
@[simp] theorem withoutMemory_storePhys (s : State) (pa : PAddr) (n : Nat) (v : Vec) (nc : Bool) :
    (s.storePhys pa n v nc).withoutMemory = s.withoutMemory := by
  unfold State.storePhys State.memStore State.cachedStore; repeat' split
  all_goals simp

@[simp] theorem withoutMemory_ncStoreNow (s : State) (a n : Nat) (v : Vec) :
    (s.ncStoreNow a n v).withoutMemory = s.withoutMemory := by
  simp [State.ncStoreNow]

/-- The write of an atomic changes nothing but what `withoutMemory` leaves out. -/
@[simp] theorem withoutMemory_atomicStore (s : State) (pa : PAddr) (n : Nat) (v : Vec) :
    (s.atomicStore pa n v).withoutMemory = s.withoutMemory := by
  unfold State.atomicStore; split <;> simp

/-! ## The canonical form, of accesses -/

theorem damage_wf {s : State} (a n : Nat) (hw : Memory.wf s.mem = true) : Memory.wf (s.damage a n).mem = true :=
  loseBytes_wf _ _ hw

theorem linesLeave_wf {s : State} (gone : List Nat) (hw : Memory.wf s.mem = true) :
    Memory.wf (s.linesLeave gone).mem = true := by
  have h (s : State) (e : CellError) (h : Memory.wf s.mem = true) : Memory.wf (s.cellLeaves e).mem = true := by
    unfold State.cellLeaves; repeat' split
    · exact h
    · rw [mem_scError]; exact damage_wf _ _ h
    · rw [mem_scError]; exact h
  exact foldl_wf h _ (s := { s with dcErrors := s.dcErrors.filter fun e => !gone.contains e.line }) hw

theorem lineLeaves_wf {s : State} (l : Nat) (hw : Memory.wf s.mem = true) : Memory.wf (s.lineLeaves l).mem = true :=
  linesLeave_wf _ hw

theorem flushLine_wf {s : State} (l : Nat) (hw : Memory.wf s.mem = true) : Memory.wf (s.flushLine l).mem = true := by
  unfold State.flushLine; split <;> exact linesLeave_wf _ hw

theorem replaceLines_wf {s : State} (a : Nat) (hw : Memory.wf s.mem = true) :
    Memory.wf (s.replaceLines a).mem = true := by
  unfold State.replaceLines; dsimp only; split
  · exact hw
  · exact linesLeave_wf _ hw

theorem fillLine_wf {s : State} (a : Nat) (hw : Memory.wf s.mem = true) : Memory.wf (s.fillLine a).mem = true :=
  replaceLines_wf (s := s.recounted (a / 128)) a hw

theorem forceFill_wf {s : State} (a : Nat) (hw : Memory.wf s.mem = true) : Memory.wf (s.forceFill a).mem = true := by
  rwa [mem_forceFill]

theorem storeErrors_wf {s : State} (a n : Nat) (hw : Memory.wf s.mem = true) :
    Memory.wf (s.storeErrors a n).mem = true := by
  unfold State.storeErrors
  split
  · exact hw
  · refine foldl_wf (fun s e h => ?_) _ hw
    unfold State.storeMeets; dsimp only; repeat' split
    all_goals first | exact h | exact damage_wf _ _ h | (rw [mem_countCorrected]; exact h)

/-- A store that takes effect now is one write of its bytes: which bytes depends on the stores that have not. -/
theorem putNow_mem (s : State) (a n : Nat) (v : Vec) : ∃ w, (s.putNow a n v).mem = writeBytes s.mem a n w := by
  unfold State.putNow State.putUnder; split <;> exact ⟨_, rfl⟩

theorem putDrawn_mem (s : State) (a n : Nat) (v : Vec) : ∃ w, (s.putDrawn a n v).mem = writeBytes s.mem a n w := by
  unfold State.putDrawn; split
  · exact putNow_mem s.settle a n v
  · exact putNow_mem s a n v

theorem putWaiting_mem (s : State) (a n : Nat) (v : Vec) :
    (s.putWaiting a n v).mem = writeBytes (s.lineLeaves (a / 128)).mem a n v := rfl

theorem putWaiting_wf {s : State} {a n : Nat} (v : Vec) (hw : Memory.wf s.mem = true) (h : a + n ≤ 2 ^ 46) :
    Memory.wf (s.putWaiting a n v).mem = true := writeBytes_wf n v (lineLeaves_wf _ hw) h

/-- A store that takes effect before its place in the program keeps the canonical form. -/
theorem putEarly_wf {s : State} {p : EarlyStore} (hw : Memory.wf s.mem = true) (h : p.addr + p.size ≤ 2 ^ 46) :
    Memory.wf (s.putEarly p).mem = true := writeBytes_wf _ _ (lineLeaves_wf _ hw) h

theorem ncStore_wf {s : State} {a n : Nat} (v : Vec) (hw : Memory.wf s.mem = true) (h : a + n ≤ 2 ^ 46) :
    Memory.wf (s.ncStore a n v).mem = true := by
  unfold State.ncStore; split
  · exact hw
  · exact putWaiting_wf v hw h

theorem ncStoreNow_mem (s : State) (a n : Nat) (v : Vec) :
    (s.ncStoreNow a n v).mem = writeBytes (s.lineLeaves (a / 128)).mem a n v := by
  unfold State.ncStoreNow State.settleAt; rfl

theorem cachedStore_mem (s : State) (a n : Nat) (v : Vec) : ∃ w, (s.cachedStore a n v).mem =
    writeBytes (((s.replaceLines a).forceFill a).storeErrors a n).mem a n w := by
  simp only [State.cachedStore, mem_forceErrors, mem_cached]
  exact putDrawn_mem _ a n v

/-- A store to memory that exists keeps the canonical form. -/
theorem memStore_wf {s : State} {pa : PAddr} {n : Nat} (v : Vec) (nc : Bool) (hw : Memory.wf s.mem = true)
    (h : loc pa + n ≤ 2 ^ 46) : Memory.wf (s.memStore pa n v nc).mem = true := by
  unfold State.memStore; split
  · exact ncStore_wf v hw h
  · obtain ⟨w, hm⟩ := cachedStore_mem s (loc pa) n v
    rw [hm]; exact writeBytes_wf n w (storeErrors_wf _ _ (forceFill_wf _ (replaceLines_wf _ hw))) h

/-- So does the store of an atomic. -/
theorem atomicStore_wf {s : State} {pa : PAddr} {n : Nat} (v : Vec) (hw : Memory.wf s.mem = true)
    (h : loc pa + n ≤ 2 ^ 46) : Memory.wf (s.atomicStore pa n v).mem = true := by
  unfold State.atomicStore; split
  · rw [ncStoreNow_mem]; exact writeBytes_wf n v (lineLeaves_wf _ hw) h
  · obtain ⟨w, hm⟩ := putNow_mem (s.storeErrors (loc pa) n) (loc pa) n v
    rw [mem_forceErrors, mem_cached, hm]; exact writeBytes_wf n w (storeErrors_wf _ _ hw) h

/-- A store of another agent keeps the canonical form. -/
theorem agentStore_wf {s : State} (a : BitVec 46) (b : Byte) (hw : Memory.wf s.mem = true) :
    Memory.wf (s.agentStore a b).mem = true := by
  have h : a.toNat + 1 ≤ 2 ^ 46 := a.isLt
  obtain ⟨w, hm⟩ := putDrawn_mem (s.lineLeaves (a.toNat / 128)) a.toNat 1 (b.setWidth 256)
  exact hm ▸ writeBytes_wf 1 w (lineLeaves_wf _ hw) h

/-- A read keeps the canonical form: it may drop a line with an error from the data cache. -/
theorem loadPhys_wf {s : State} (pa : PAddr) (n : Nat) (nc : Bool) (hw : Memory.wf s.mem = true) :
    Memory.wf (s.loadPhys pa n nc).2.mem = true := by
  unfold State.loadPhys
  split
  · split
    · have h (r : Ior) : (s.ioLoad pa n r).2.mem = s.mem := by
        unfold State.ioLoad; cases r <;> dsimp only
        case mailBox => split <;> rfl
        all_goals rfl
      unfold State.ioAnswer; split <;> simp [h, hw]
    · exact hw
  · unfold State.memLoad; dsimp only; repeat' split
    · simp only [State.orderedBefore_mem, State.settleAt_mem, State.closeMerge_mem]
      exact lineLeaves_wf _ hw
    all_goals exact forceFill_wf _ (replaceLines_wf _ hw)

/-! ## Where nothing is open -/

section
variable {s : State}

theorem recounted_none (h : s.dcErrors = []) (l : Nat) : s.recounted l = s := by
  cases s; cases h; rfl

/-- Without an error in the data cache a line that leaves it is clean from then on, and nothing else changes. -/
theorem lineLeaves_none (h : s.dcErrors = []) (l : Nat) : s.lineLeaves l = s.lineClean l := by
  cases s; cases h
  simp only [State.lineLeaves, State.linesLeave, State.lineClean, State.recounted, List.contains_cons, List.contains_nil,
    Bool.or_false]
  rfl

theorem flushLine_none (h : s.dcErrors = []) (l : Nat) : s.flushLine l = s.lineClean l := by
  simp [State.flushLine, h, lineLeaves_none h]

theorem replaceLines_none (h : s.dcErrors = []) (a : Nat) : s.replaceLines a = s := by simp [State.replaceLines, h]

theorem fillLine_none (h : s.dcErrors = []) (a : Nat) : s.fillLine a = s := by
  rw [State.fillLine, recounted_none h, replaceLines_none h, recounted_none h]

theorem forcedKinds_none (h : s.cleanCache) : s.forcedKinds = [] := by
  obtain ⟨-, h0, h1, h2⟩ := h
  simp only [State.forcedKinds, h0, h1, h2]; rfl

theorem forceErrors_none (h : s.forcedKinds = []) (a n : Nat) : s.forceErrors a n = s := by
  simp [State.forceErrors, h]

theorem forceFill_none (h : s.forcedKinds = []) (a : Nat) : s.forceFill a = s := by simp [State.forceFill, h]

theorem tagBad_none (h : s.dcErrors = []) (a : Nat) : s.tagBad a = false := by simp [State.tagBad, h]

theorem storeErrors_none (h : s.dcErrors = []) (a n : Nat) : s.storeErrors a n = s := by simp [State.storeErrors, h]

theorem dcBad_none (h : s.dcErrors = []) (a n : Nat) : s.dcBad a n = false := by simp [State.dcBad, h]

theorem floats_none (h : s.ncRecent = []) (a n : Nat) : s.floats a n = false := by simp [State.floats, h]

theorem orderedBefore_none (h : s.early = []) (a n : Nat) : s.orderedBefore a n = s := by
  cases s; cases h; simp [State.orderedBefore]

theorem codeMem_none (h : s.early = []) : s.codeMem = s.mem := by simp [State.codeMem, h]

theorem putBytes_early_none (h : s.early = []) (a n : Nat) (v : Vec) : (s.putBytes a n v).early = [] := by simp [h]

theorem settleAt_none (h : s.ncRecent = []) (a n : Nat) : s.settleAt a n = s := by
  cases s; cases h; rfl

theorem closeMerge_none (h : s.mergeWait = none) : s.closeMerge = s := by
  cases s; cases h; rfl

theorem ioAnswer_none (h : s.armed = none) (x : Vec × State) : s.ioAnswer x = x := by simp [State.ioAnswer, h]

/-- With a clean data cache a store writes its bytes, or nothing: the bytes of a non-cacheable one may stand there
already. -/
theorem memStore_mem (h : s.cleanCache) (pa : PAddr) (n : Nat) (v : Vec) (nc : Bool) :
    (s.memStore pa n v nc).mem = s.mem ∨ ∃ w, (s.memStore pa n v nc).mem = writeBytes s.mem (loc pa) n w := by
  unfold State.memStore; split
  · unfold State.ncStore; split
    · exact .inl rfl
    · refine .inr ⟨v, ?_⟩
      change (s.putWaiting (loc pa) n v).mem = _
      rw [putWaiting_mem, lineLeaves_none h.1, State.lineClean_mem]
  · have hm := cachedStore_mem s (loc pa) n v
    rw [replaceLines_none h.1, forceFill_none (forcedKinds_none h), storeErrors_none h.1] at hm
    exact .inr hm

/-- The same of an atomic's store. -/
theorem atomicStore_mem (h : s.cleanCache) (pa : PAddr) (n : Nat) (v : Vec) :
    ∃ w, (s.atomicStore pa n v).mem = writeBytes s.mem (loc pa) n w := by
  unfold State.atomicStore; split
  · exact ⟨v, by rw [ncStoreNow_mem, lineLeaves_none h.1, State.lineClean_mem]⟩
  · rw [storeErrors_none h.1, mem_forceErrors, mem_cached]
    exact putNow_mem s (loc pa) n v

/-- Without an error in the data cache a read changes no memory. -/
theorem memLoad_mem (h : s.dcErrors = []) (pa : PAddr) (n : Nat) (nc : Bool) : (s.memLoad pa n nc).2.mem = s.mem := by
  unfold State.memLoad
  simp only [replaceLines_none h, lineLeaves_none h, dcBad_none h]
  repeat' split
  all_goals first | exact mem_forceFill _ _ | rfl

/-- With nothing open, a cacheable read gives the bytes of memory and changes nothing. -/
theorem memLoad_cached (hd : s.cleanCache) (hn : s.ncRecent = []) (pa : PAddr) (n : Nat) :
    s.memLoad pa n false = (readBytes s.mem (loc pa) n, s) := by
  simp [State.memLoad, replaceLines_none hd.1, dcBad_none hd.1, floats_none hn, forceFill_none (forcedKinds_none hd)]

/-- With nothing open, a non-cacheable read gives the bytes of memory and closes the merge window; the line is not in the data
cache afterwards. -/
theorem memLoad_nc (hd : s.dcErrors = []) (hn : s.ncRecent = []) (he : s.early = []) (pa : PAddr) (n : Nat) :
    s.memLoad pa n true = (readBytes s.mem (loc pa) n, (s.lineClean (loc pa / 128)).closeMerge) := by
  have h1 : ((s.lineClean (loc pa / 128)).closeMerge).ncRecent = [] := hn
  have h2 : ((s.lineClean (loc pa / 128)).closeMerge).early = [] := he
  simp [State.memLoad, lineLeaves_none hd, settleAt_none h1, orderedBefore_none h2]

/-- With nothing open, a cacheable store writes its bytes. -/
theorem cachedStore_settled (hd : s.cleanCache) (hn : s.ncRecent = []) (a n : Nat) (v : Vec) :
    s.cachedStore a n v = (s.putBytes a n v).cached a n := by
  have hf := forcedKinds_none hd
  have hf' : ((s.putBytes a n v).cached a n).forcedKinds = [] := hf
  simp [State.cachedStore, State.putDrawn, State.putNow, replaceLines_none hd.1, forceFill_none hf, storeErrors_none hd.1,
    floats_none hn, forceErrors_none hf']

/-- With nothing open, a non-cacheable store writes its bytes, and opens or enters the merge window. -/
theorem ncStore_settled (hd : s.dcErrors = []) (he : s.early = []) (a n : Nat) (v : Vec) :
    s.ncStore a n v = (s.putWaiting a n v).mergeStore true := by
  have h : (s.putWaiting a n v).early = [] := by
    unfold State.putWaiting; rw [lineLeaves_none hd]; exact putBytes_early_none (s := s.lineClean _) he a n v
  simp [State.ncStore, earlyTaken, he, orderedBefore_none h]

/-- With nothing open, the write of an atomic writes its bytes and leaves nothing open. -/
theorem atomicStore_settled (hd : s.cleanCache) (hn : s.ncRecent = []) (he : s.early = []) (pa : PAddr) (n : Nat) (v : Vec) :
    s.atomicStore pa n v = { s.memStore pa n v (pa.getLsbD 46) with ncRecent := [] } := by
  have hf := forcedKinds_none hd
  cases hp : pa.getLsbD 46
  · have hf' : ((s.putBytes (loc pa) n v).cached (loc pa) n).forcedKinds = [] := hf
    have e : s.atomicStore pa n v = (s.putBytes (loc pa) n v).cached (loc pa) n := by
      simp [State.atomicStore, hp, State.putNow, storeErrors_none hd.1, floats_none hn, forceErrors_none hf',
        -BitVec.getLsbD_eq_getElem]
    rw [e, State.memStore, if_neg (by simp), cachedStore_settled hd hn]
    cases s; cases hn; rfl
  · have h1 : (s.lineClean (loc pa / 128)).ncRecent = [] := hn
    have h2 : (((s.lineClean (loc pa / 128)).putBytes (loc pa) n v).uncached (loc pa) n).early = [] :=
      putBytes_early_none (s := s.lineClean _) he (loc pa) n v
    have e : s.atomicStore pa n v =
        (((s.lineClean (loc pa / 128)).putBytes (loc pa) n v).uncached (loc pa) n).mergeStore true := by
      rw [State.atomicStore, if_pos hp, State.ncStoreNow, lineLeaves_none hd.1, settleAt_none h1, orderedBefore_none h2]
    rw [e, State.memStore, if_pos rfl, ncStore_settled hd.1 he]
    simp only [State.putWaiting, lineLeaves_none hd.1]
    cases s; cases hn; rfl

end

/-! ## Reads after writes -/

theorem memRead_memWrite_from {lo a b : Nat} {m : List Host.Cell} (v : Byte) (hw : Memory.wfFrom lo m = true) :
    memRead (memWrite m a v) b = if b = a then v else memRead m b := by
  induction m generalizing lo with
  | nil =>
    simp only [memWrite]
    split <;> simp_all [memRead]
  | cons c m ih =>
    obtain ⟨k, x⟩ := c
    have hc := (wfFrom_cons lo k x m).mp hw
    simp only [memWrite]
    split
    · rename_i hak
      split
      · rename_i hv
        by_cases hb : b = a
        · subst hb
          rw [if_pos rfl, hv, memRead, if_neg (by omega)]
          exact memRead_below hc.2.2.2 (by omega)
        · rw [if_neg hb]
      · simp [memRead]
    · split
      · rename_i hak
        subst hak
        split
        · rename_i hv
          by_cases hb : b = a
          · subst hb
            rw [if_pos rfl, hv]
            exact memRead_below hc.2.2.2 (by omega)
          · rw [if_neg hb]; simp [memRead, hb]
        · by_cases hb : b = a <;> simp [memRead, hb]
      · rw [memRead, memRead, ih hc.2.2.2]
        split
        · subst b; rw [if_neg (by omega)]
        · rfl

/-- Reading a byte after writing one: the written value there, the old value elsewhere. -/
theorem memRead_memWrite {a b : Nat} {m : List Host.Cell} (v : Byte) (hw : Memory.wf m = true) :
    memRead (memWrite m a v) b = if b = a then v else memRead m b := memRead_memWrite_from v hw

/-- Reading a byte after writing `n` bytes from `a`: byte `b - a` of the value inside, the old byte outside. -/
theorem memRead_writeBytes {a b n : Nat} {m : List Host.Cell} (v : Vec) (hw : Memory.wf m = true)
    (h : a + n ≤ 2 ^ 46) :
    memRead (writeBytes m a n v) b = if a ≤ b ∧ b < a + n then byteOf v (b - a) else memRead m b := by
  induction n with
  | zero => rw [if_neg (by omega)]; rfl
  | succ n ih =>
    rw [writeBytes, memRead_memWrite _ (writeBytes_wf n v hw (by omega)), ih (by omega)]
    by_cases hb : b = a + n
    · subst hb; rw [if_pos rfl, if_pos (by omega)]; simp
    · rw [if_neg hb]
      by_cases hi : a ≤ b ∧ b < a + n
      · rw [if_pos hi, if_pos (by omega)]
      · rw [if_neg hi, if_neg (by omega)]

/-- Bit `j` of `n` bytes read from `a`. -/
theorem readBytes_getLsbD (m : List Host.Cell) (a : Nat) {n : Nat} (hn : n ≤ 32) (j : Nat) :
    (readBytes m a n).getLsbD j = (decide (j < 8 * n) && (memRead m (a + j / 8)).getLsbD (j % 8)) := by
  induction n with
  | zero => simp [readBytes]
  | succ n ih =>
    rw [readBytes, BitVec.getLsbD_or, ih (by omega), BitVec.getLsbD_shiftLeft, BitVec.getLsbD_setWidth]
    by_cases h1 : j < 8 * n
    · simp [h1]; omega
    · by_cases h2 : j < 8 * (n + 1)
      · obtain ⟨hq, hr⟩ : j / 8 = n ∧ j % 8 = j - 8 * n := by omega
        have h3 : j < 256 ∧ j - 8 * n < 256 := by omega
        simp [h1, h2, h3, hq, hr, -BitVec.getLsbD_eq_getElem]
      · have : 8 ≤ j - 8 * n := by omega
        simp [h1, h2, BitVec.getLsbD_of_ge _ _ this]

/-- Byte `i` of `n` bytes read from `a`. -/
theorem byteOf_readBytes (m : List Host.Cell) (a : Nat) {n i : Nat} (hn : n ≤ 32) (hi : i < n) :
    byteOf (readBytes m a n) i = memRead m (a + i) := by
  refine BitVec.eq_of_getLsbD_eq fun k hk => ?_
  obtain ⟨hq, hr⟩ : (8 * i + k) / 8 = i ∧ (8 * i + k) % 8 = k := by omega
  rw [byteOf, BitVec.getLsbD_extractLsb', readBytes_getLsbD m a hn, hq, hr]
  simp only [hk, decide_true, Bool.true_and, show 8 * i + k < 8 * n by omega]

/-! ## Memory as instruction fetches see it -/

/-- Two memories that agree on a byte agree on it once the early stores are taken out of both. -/
theorem foldl_under_congr {ps : List EarlyDone} {m m' : List Host.Cell} {a : Nat} (hw : Memory.wf m = true)
    (hw' : Memory.wf m' = true) (hp : ∀ p ∈ ps, p.addr + p.size ≤ 2 ^ 46) (h : memRead m a = memRead m' a) :
    memRead (ps.foldl (fun m p => writeBytes m p.addr p.size p.under) m) a =
      memRead (ps.foldl (fun m p => writeBytes m p.addr p.size p.under) m') a := by
  induction ps generalizing m m' with
  | nil => exact h
  | cons p ps ih =>
    have hb : p.addr + p.size ≤ 2 ^ 46 := hp p List.mem_cons_self
    refine ih (writeBytes_wf _ _ hw hb) (writeBytes_wf _ _ hw' hb) (fun q hq => hp q (List.mem_cons_of_mem _ hq)) ?_
    rw [memRead_writeBytes _ hw hb, memRead_writeBytes _ hw' hb, h]

theorem foldl_under_wf {ps : List EarlyDone} {m : List Host.Cell} (hw : Memory.wf m = true)
    (hp : ∀ p ∈ ps, p.addr + p.size ≤ 2 ^ 46) :
    Memory.wf (ps.foldl (fun m p => writeBytes m p.addr p.size p.under) m) = true := by
  induction ps generalizing m with
  | nil => exact hw
  | cons p ps ih =>
    exact ih (writeBytes_wf _ _ hw (hp p List.mem_cons_self)) fun q hq => hp q (List.mem_cons_of_mem _ hq)

/-- A store that takes effect before its place in the program changes no byte that a fetch sees (R247): only an error of its
line that leaves the data cache does. -/
theorem memRead_codeMem_putEarly {s : State} {p : EarlyStore} (hw : Memory.wf s.mem = true) (hn : p.size ≤ 32)
    (hp : p.addr + p.size ≤ 2 ^ 46) (he : ∀ q ∈ (s.lineLeaves (p.addr / 128)).early, q.addr + q.size ≤ 2 ^ 46) (a : Nat) :
    memRead (s.putEarly p).codeMem a = memRead (s.lineLeaves (p.addr / 128)).codeMem a := by
  have ht : Memory.wf (s.lineLeaves (p.addr / 128)).mem = true := lineLeaves_wf _ hw
  unfold State.putEarly
  dsimp only
  generalize s.lineLeaves (p.addr / 128) = t at ht he ⊢
  have hm : Memory.wf (writeBytes t.mem p.addr p.size p.value) = true := writeBytes_wf _ _ ht hp
  simp only [State.codeMem, EarlyStore.over, List.foldl_append, List.foldl_cons, List.foldl_nil]
  rw [memRead_writeBytes _ (foldl_under_wf hm he) hp]
  split
  · rename_i h
    rw [byteOf_readBytes _ _ hn (by omega)]
    congr 1; omega
  · exact foldl_under_congr hm ht he (by rw [memRead_writeBytes _ ht hp, if_neg ‹_›])

end Sys2Proof.Machine
end

