-- ==== Sys2Proof/Laws/Ops.lean ====
section
/-! SUPPORT. For each shared operation, once, everything it can do: the provers cite these lemmas instead of unfolding
the operation. -/

namespace Sys2Proof.Machine

/-! ## What no exception changes -/

/-- State that no exception, no check of an access, no fetch and no passing of time changes. -/
def State.keptByTime (s : State) :=
  ((s.gpr, s.sr, s.vr, s.kinds, s.fpcr, s.mem, s.itb, s.dtb, s.plat),
    (s.codeHist, s.ncRecent, s.unflushed, s.dcDirty, s.dcErrors, s.ior, s.inputs, s.lock.size),
    (s.ibox.priBase, s.ibox.isCtl, s.ibox.upcr, s.ibox.ier, s.ebox.tid, s.ebox.icr, s.dbox.dtbPcr, s.dbox.dcCtl),
    (s.ibox.vpcr, s.ibox.intVec, s.ibox.iaMatch, s.ibox.iaMask, s.dbox.daMatch, s.dbox.dvMatch, s.ebox.idaMatch,
      s.ebox.idaMask, s.sbox.scCtl, s.sbox.cpCtl, s.ebox.tcCtl, s.ebox.softcsr),
    (s.ibox.ptbr, s.ibox.vptBase, s.ibox.iiEr, s.ibox.timerTh, s.ibox.issueCtl, s.ibox.hserrTh, s.ibox.itbTag),
    (s.dbox.dtbTag, s.dbox.dsCtl, s.dbox.daMask, s.dbox.daMatchMode, s.dbox.dvMask, s.sbox.mergeOvtime))

/-- State that no exception, no check of an access and no fetch changes. -/
def State.kept (s : State) := (s.keptByTime, s.ibox.timerCtl)

theorem keptByTime_of_kept {s t : State} (h : s.kept = t.kept) : s.keptByTime = t.keptByTime := congrArg Prod.fst h

@[simp] theorem kept_raiseOpcdec (s : State) (b : Bool) : (s.raiseOpcdec b).kept = s.kept := rfl
@[simp] theorem kept_raiseFen (s : State) : s.raiseFen.kept = s.kept := rfl
@[simp] theorem kept_raiseIaMatch (s : State) : s.raiseIaMatch.kept = s.kept := rfl
@[simp] theorem kept_raiseBadIva (s : State) (t : Word) : (s.raiseBadIva t).kept = s.kept := rfl
@[simp] theorem kept_raiseIdaMatch (s : State) (t : Word) : (s.raiseIdaMatch t).kept = s.kept := rfl
@[simp] theorem kept_raiseArith (s : State) (p b : Word) (r : BitVec 5) : (s.raiseArith p b r).kept = s.kept := rfl
@[simp] theorem kept_raiseDtbDouble (s : State) : s.raiseDtbDouble.kept = s.kept := rfl
@[simp] theorem kept_enter (s : State) (e : Exc) (p : Word) : (s.enter e p).kept = s.kept := rfl
@[simp] theorem kept_drawn (s : State) : s.drawn.kept = s.kept := rfl
@[simp] theorem kept_advance (s : State) : s.advance.kept = s.kept := rfl
@[simp] theorem kept_send (s : State) (e : OutEvent) : (s.send e).kept = s.kept := rfl
@[simp] theorem kept_setPending (s : State) (n : BitVec 8) : (s.setPending n).kept = s.kept := rfl
@[simp] theorem kept_breakLock (s : State) : s.breakLock.kept = s.kept := rfl
@[simp] theorem kept_transferTo (s : State) (t : Word) : (s.transferTo t).kept = s.kept := rfl
@[simp] theorem kept_fallThrough (s : State) : s.fallThrough.kept = s.kept := rfl

@[simp] theorem kept_raiseData (s : State) (q : MemReq) (e : Exc) (b x v : Word) : (s.raiseData q e b x v).kept = s.kept := by
  unfold State.raiseData; dsimp only; split <;> rfl

@[simp] theorem kept_raiseDataPhys (s : State) (q : MemReq) (b x : Word) (pa : PAddr) :
    (s.raiseDataPhys q b x pa).kept = s.kept := by
  unfold State.raiseDataPhys; rw [kept_raiseData, kept_drawn]

@[simp] theorem kept_countCorrected (s : State) : s.countCorrected.kept = s.kept := by
  unfold State.countCorrected; dsimp only; split <;> rfl

@[simp] theorem kept_setScStat (s : State) (i : Nat) : (s.setScStat i).kept = s.kept := rfl
@[simp] theorem kept_setDcStat (s : State) (i : Nat) : (s.setDcStat i).kept = s.kept := rfl
@[simp] theorem kept_mchkRequest (s : State) : s.mchkRequest.kept = s.kept := rfl
@[simp] theorem kept_enterInterrupt (s : State) (e : Exc) : (s.enterInterrupt e).kept = s.kept := rfl
@[simp] theorem kept_icacheFlushIndex (s : State) (i : BitVec 6) : (s.icacheFlushIndex i).kept = s.kept := rfl

@[simp] theorem kept_scError (s : State) (i : Nat) : (s.scError i).kept = s.kept := by
  unfold State.scError
  split
  · rfl
  · split
    · rfl
    · dsimp only
      repeat' split
      all_goals simp

/-! ## The decode stage -/

/-- With the checks passed, the instruction runs. -/
theorem atDecode_run {s : State} {p : Pipe} (h : s.passes p) (run : Result) : s.atDecode none p run = run := by
  simp [State.atDecode, h.1, h.2]

/-- What the decode stage can answer. -/
theorem atDecode_cases (s : State) (ill : Option Bool) (p : Pipe) (run : Result) :
    (∃ b, ill = some b ∧ s.atDecode ill p run = .next (s.raiseOpcdec b)) ∨
    (ill = none ∧ s.iaMatch = true ∧ s.atDecode ill p run = .next s.raiseIaMatch) ∨
    (ill = none ∧ s.iaMatch = false ∧ s.fen p = true ∧ s.atDecode ill p run = .next s.raiseFen) ∨
    (ill = none ∧ s.passes p ∧ s.atDecode ill p run = run) := by
  cases ill with
  | some b => exact .inl ⟨b, rfl, rfl⟩
  | none =>
    cases ha : s.iaMatch
    · cases hf : s.fen p
      · exact .inr (.inr (.inr ⟨rfl, ⟨ha, hf⟩, atDecode_run ⟨ha, hf⟩ run⟩))
      · exact .inr (.inr (.inl ⟨rfl, rfl, rfl, by simp [State.atDecode, ha, hf]⟩))
    · exact .inr (.inl ⟨rfl, rfl, by simp [State.atDecode, ha]⟩)

theorem passes_int {s : State} (h : s.iaMatch = false) : s.passes .int := ⟨h, rfl⟩

/-- A null instruction advances. -/
theorem execNull_run {s : State} (h : s.iaMatch = false) : s.execNull = .next s.advance :=
  atDecode_run (passes_int h) _

/-- An instruction that is null or needs unit `p` begins with one decode stage. -/
theorem execNull_or (s : State) (c : Prop) [Decidable c] (p : Pipe) (run : Result) :
    (if c then s.execNull else s.atDecode none p run)
      = s.atDecode none (if c then .int else p) (if c then .next s.advance else run) := by
  split <;> rfl

theorem execNull_or_int (s : State) (c : Prop) [Decidable c] (run : Result) :
    (if c then s.execNull else s.atDecode none .int run) = s.atDecode none .int (if c then .next s.advance else run) := by
  split <;> rfl

/-- Every meaning begins with the decode stage of its instruction: OPCDEC, the address match, FEN (R595 item 2). -/
theorem exec_decodes (i : Instr) (s : State) : ∃ run, exec i s = s.atDecode (s.illegal i) (Instr.unit i) run := by
  cases i with
  | faddd | ifmovs | ifmovd | fimovs | fimovd | rfpcr | flds | fldd | lddNc | vaddd | vinsf | vinsw | vcpyf | vextf
  | vextw | ldwe | ldse | ldde | vlds | vldd | vldwU | vldsU | vlddU | vlddNc => exact ⟨_, execNull_or s _ _ _⟩
  | addw | addwL | subw | subwL | addl | addlL | subl | sublL | mulw | mulwL | mull | mullL | umulh | umulhL
  | cmpeq | cmpeqL | cmplt | cmpltL | cmple | cmpleL | cmpult | cmpultL | cmpule | cmpuleL | and | andL | bic | bicL
  | bis | bisL | ornot | ornotL | xor | xorL | eqv | eqvL | ldi | ldih | ldbu | ldhu | ldw | ldl
  | ldlU | ldwNc | ldlNc => exact ⟨_, execNull_or_int s _ _⟩
  | sysCall | sysCallB | call | ret | jmp | br | bsr | beq | bne | blt | ble | bgt | bge | blbc
  | blbs | fbeq | fbne | fblt | fble | fbgt | fbge | memb | imemb | rtc | rcid | halt | wrF | rtid
  | priRcsr | priWcsr | priRet | priRetB | lldw | lldl | ldwInc | ldlInc | ldwDec | ldlDec | ldwSet | ldlSet | lstw | lstl
  | stwNc | stlNc | stdNc | vsts | vstd | nop | wfpcr | setfpec0 | setfpec1 | setfpec2 | setfpec3 | vstwU | vstsU | vstdU
  | vstwUl | vstwUh | vstsUl | vstsUh | vstdUl | vstdUh | vstdNc | stb | sth | stw | stl | stlU | fsts | fstd
  | priLdwP | priLdlP | priLdwIncP | priLdlIncP | priLdwDecP | priLdlDecP | priLdwSetP | priLdlSetP | priLdwV | priLdlV | priLdwVpte | priLdlVpte | priStwP | priStlP
  | priStwV | priStlV | fetchd | fetchdE | flushd | evictdl | evictdg => exact ⟨_, rfl⟩
  | rdF r =>
    by_cases h : r = 31
    · subst h
      exact ⟨_, rfl⟩
    · refine ⟨.next (s.writeReg r (flag s.lock.success 0)).advance, ?_⟩
      have e : s.illegal (.rdF r) = s.rdFIllegal := if_neg h
      rw [e]
      exact if_neg h

/-! ## Registers -/

theorem readReg_31 (s : State) : s.readReg 31 = 0 := by simp [State.readReg]

theorem writeReg_31 (s : State) (v : Word) : s.writeReg 31 v = s := by simp [State.writeReg]

/-- Two numbers that name the same system register are the same number. -/
theorem srSlot_inj {r r' : Reg} {k : Fin 10} (h : srSlot r = some k) (h' : srSlot r' = some k) : r = r' := by
  revert r r' k; decide

theorem writeReg_sr {s : State} {r : Reg} {k : Fin 10} (v : Word) (h : r ≠ 31) (hk : s.srOf r = some k) :
    s.writeReg r v = { s with sr := s.sr.set k v } := by simp only [State.writeReg, if_neg h, hk]

theorem writeReg_gpr {s : State} {r : Reg} (v : Word) (h : r ≠ 31) (hk : s.srOf r = none) :
    s.writeReg r v = { s with gpr := s.gpr.set r.toNat v r.isLt } := by simp only [State.writeReg, if_neg h, hk]

/-- Which system register a number names does not change with a register write. -/
theorem srOf_writeReg (s : State) (r r' : Reg) (v : Word) : (s.writeReg r v).srOf r' = s.srOf r' := by
  simp [State.srOf, State.srActive, State.mode, State.modeBits]

/-- A register reads what was written to it. -/
theorem readReg_writeReg_same (s : State) {r : Reg} (v : Word) (h : r ≠ 31) : (s.writeReg r v).readReg r = v := by
  rw [State.readReg, if_neg h, srOf_writeReg]
  cases hr : s.srOf r with
  | none => simp [writeReg_gpr v h hr]
  | some k => simp [writeReg_sr v h hr]

/-- Another register reads what it did. -/
theorem readReg_writeReg_other (s : State) {r r' : Reg} (v : Word) (h : r' ≠ r) :
    (s.writeReg r v).readReg r' = s.readReg r' := by
  by_cases h31 : r = 31
  · rw [h31, writeReg_31]
  rw [State.readReg, State.readReg, srOf_writeReg]
  cases hr : s.srOf r with
  | none =>
    rw [writeReg_gpr v h31 hr]
    have hn : r.toNat ≠ r'.toNat := fun e => h (BitVec.eq_of_toNat_eq e.symm)
    cases s.srOf r' with
    | none => simp [Vector.getElem_set_ne, hn]
    | some k => rfl
  | some k =>
    rw [writeReg_sr v h31 hr]
    cases hr' : s.srOf r' with
    | none => rfl
    | some k' =>
      have hk : k ≠ k' := by
        rintro rfl
        unfold State.srOf at hr hr'
        split at hr
        · rw [if_pos ‹_›] at hr'; exact h (srSlot_inj hr' hr)
        · cases hr
      simp [Vector.getElem_set_ne, Fin.val_ne_of_ne hk]

/-! ## Data accesses -/

/-- A trap of the address check leaves what no exception changes. -/
theorem addressCheck_kept {s t : State} {q : MemReq} (h : s.addressCheck q = some t) : t.kept = s.kept := by
  unfold State.addressCheck at h
  split at h
  · cases h; simp
  · split at h
    · cases h; simp
    · cases h

/-- Translation changes nothing when it answers an address, and only exception records when it traps. -/
theorem translate_cases (s : State) (q : MemReq) :
    (∃ pa, s.translate q = .ok pa s) ∨ (∃ t, s.translate q = .trap t ∧ t.kept = s.kept) ∨
      s.translate q = .stuck .dtbMultiHit := by
  unfold State.translate
  split
  · exact .inl ⟨_, rfl⟩
  · split
    · exact .inl ⟨_, rfl⟩
    · exact .inr (.inl ⟨_, rfl, by simp⟩)
    · split
      · exact .inr (.inl ⟨_, rfl, by simp⟩)
      · exact .inr (.inl ⟨_, rfl, by simp⟩)
    · exact .inr (.inr rfl)

theorem matchCheck_kept {s t : State} {q : MemReq} {pa : PAddr} (h : s.matchCheck q pa = some t) : t.kept = s.kept := by
  unfold State.matchCheck at h
  dsimp only at h
  split at h
  · split at h
    · cases h; split <;> simp
    · cases h
  · split at h
    · cases h; split <;> simp
    · split at h
      · cases h; split <;> simp
      · cases h

/-- No error of the data cache is met, and none is armed: the access passes and the state stays. -/
theorem dataError_none {s : State} (hd : s.dcErrors = []) (h : s.armed = none) (q : MemReq) (pa : PAddr) :
    s.dataError q pa = .ok pa s := by
  simp [State.dataError, State.tagFault, State.dcFault, State.armedError, tagBad_none hd, dcBad_none hd, h]

@[simp] theorem kept_answerError (s : State) (q : MemReq) (pa : PAddr) : (s.answerError q pa).kept = s.kept := by
  unfold State.answerError; split <;> simp

/-- The checks answer address `pa` or a trap, and leave what `kept` names. -/
def Checked.Keeps (s : State) (pa : PAddr) : Checked → Prop
  | .ok p t => p = pa ∧ t.kept = s.kept
  | .trap t => t.kept = s.kept
  | .stuck _ => False

/-- An armed error strikes or passes: the state changes only in what `kept` leaves out. -/
theorem armedError_keeps (s : State) (q : MemReq) (pa : PAddr) : (s.armedError q pa).Keeps s pa := by
  have hn : ({ s with armed := none } : State).kept = s.kept := rfl
  unfold State.armedError
  dsimp only
  generalize ({ s with armed := none } : State) = t at hn ⊢
  split <;> (repeat' split) <;> first
    | exact ⟨rfl, rfl⟩
    | exact ⟨rfl, hn⟩
    | simp only [Checked.Keeps, kept_raiseDataPhys, kept_scError, kept_enterInterrupt,
        kept_mchkRequest, kept_setDcStat, hn]

/-- A reported error strikes or passes: the state changes only in what `kept` leaves out. -/
theorem dataError_keeps (s : State) (q : MemReq) (pa : PAddr) : (s.dataError q pa).Keeps s pa := by
  unfold State.dataError
  split
  · exact (kept_raiseDataPhys _ _ _ _ _).trans (kept_countCorrected _)
  · split
    · exact kept_raiseDataPhys _ _ _ _ _
    · exact armedError_keeps s q pa

theorem dataError_cases (s : State) (q : MemReq) (pa : PAddr) :
    (∃ t, s.dataError q pa = .ok pa t ∧ t.kept = s.kept) ∨ (∃ t, s.dataError q pa = .trap t ∧ t.kept = s.kept) := by
  have h := dataError_keeps s q pa
  generalize s.dataError q pa = c at h
  cases c with
  | ok p t => obtain ⟨rfl, hk⟩ := h; exact .inl ⟨t, rfl, hk⟩
  | trap t => exact .inr ⟨t, rfl, h⟩
  | stuck f => exact h.elim

/-- What the checks after translation answer: the state changes only in what `kept` leaves out. -/
theorem accessCheck_cases (s : State) (q : MemReq) (pa : PAddr) :
    (∃ t, s.accessCheck q pa = .ok (alignDown pa q.block) t ∧ t.kept = s.kept) ∨
      (∃ t, s.accessCheck q pa = .trap t ∧ t.kept = s.kept) := by
  unfold State.accessCheck
  split
  · exact .inr ⟨_, rfl, matchCheck_kept ‹_›⟩
  · dsimp only
    generalize hu : (if (s.dvEn && decide (q.value = .free)) = true then s.drawn else s) = u
    have hk : u.kept = s.kept := by subst hu; split <;> simp
    split
    · exact .inr ⟨_, rfl, by rw [kept_raiseData, hk]⟩
    · split
      · exact .inr ⟨_, rfl, by rw [kept_raiseDataPhys, kept_answerError, hk]⟩
      · rw [← hk]; exact dataError_cases u q _

/-- What all the checks of an access answer. -/
theorem check_cases (s : State) (q : MemReq) :
    (∃ pa t, s.check q = .ok pa t ∧ t.kept = s.kept) ∨ (∃ t, s.check q = .trap t ∧ t.kept = s.kept) ∨
      s.check q = .stuck .dtbMultiHit := by
  unfold State.check
  split
  · exact .inr (.inl ⟨_, rfl, addressCheck_kept ‹_›⟩)
  · obtain ⟨pa, h⟩ | ⟨t, h, hk⟩ | h := translate_cases s q
    · rw [h]
      obtain ⟨t, h', hk⟩ | ⟨t, h', hk⟩ := accessCheck_cases s q pa
      · exact .inl ⟨_, t, h', hk⟩
      · exact .inr (.inl ⟨t, h', hk⟩)
    · rw [h]; exact .inr (.inl ⟨t, rfl, hk⟩)
    · rw [h]; exact .inr (.inr rfl)

/-- An access that passes its checks reaches an address its class may use, where something answers. -/
theorem check_legal {s t : State} {q : MemReq} {pa : PAddr} (h : s.check q = .ok pa t) :
    q.classIllegal pa = false ∧ s.unanswered q pa = false := by
  have hd (u : State) (p0 : PAddr) : ∀ {p : PAddr} {v : State}, u.dataError q p0 = .ok p v → p = p0 := by
    intro p v hv
    have := dataError_keeps u q p0
    rw [hv] at this
    exact this.1
  have ha (u : State) (p0 : PAddr) (hu : u.accessCheck q p0 = .ok pa t) :
      q.classIllegal pa = false ∧ u.unanswered q pa = false := by
    unfold State.accessCheck at hu
    split at hu
    · cases hu
    · dsimp only at hu
      generalize hv : (if (u.dvEn && decide (q.value = .free)) = true then u.drawn else u) = v at hu
      have e (p : PAddr) : v.unanswered q p = u.unanswered q p := by subst hv; split <;> rfl
      split at hu
      · cases hu
      · split at hu
        · cases hu
        · rename_i h1 h2
          obtain rfl := hd _ _ hu
          rw [e] at h2
          exact ⟨by simpa using h1, by simpa using h2⟩
  unfold State.check at h
  split at h
  · cases h
  · obtain ⟨p, hp⟩ | ⟨u, hp, -⟩ | hp := translate_cases s q <;> rw [hp] at h
    · exact ha s p h
    · cases h
    · cases h

/-- Running an access after its checks. -/
theorem andThen_next {c : Checked} {run : PAddr → State → State} {u : State} (h : c.andThen run = .next u) :
    (∃ pa t, c = .ok pa t ∧ u = run pa t) ∨ c = .trap u := by
  cases c with
  | ok pa t => cases h; exact .inl ⟨pa, t, rfl, rfl⟩
  | trap t => cases h; exact .inr rfl
  | stuck f => cases h

/-- An access that is ready passes every check and the state stays. -/
theorem check_of_ready {s : State} {q : MemReq} {pa : PAddr} (h : s.ready q pa) : s.check q = .ok pa s := by
  obtain ⟨⟨hr, hw, hv⟩, harm, hdc, hc, hu, p, ⟨hb, hal, ht⟩, rfl⟩ := h
  have h1 : s.addressCheck q = none := by
    unfold State.addressCheck
    rw [if_neg (by cases hb <;> simp_all), if_neg (by simp [hal])]
  have h2 : s.translate q = .ok p s := by
    unfold State.translate
    split
    · rw [if_pos ‹_›] at ht; rw [ht]
    · rw [if_neg ‹_›] at ht; rw [ht]
  have hd : s.daHit q p = false := by simp only [State.daHit, hr, hw, Bool.false_and, Bool.or_false]
  have hdv : s.dvHit q (s.free.getLsbD 1) = false := by
    unfold State.dvHit; split <;> simp [hv]
  have h3 : s.matchCheck q p = none := by
    unfold State.matchCheck; simp only [hd, hdv]; split <;> rfl
  have h4 : s.dataError q (alignDown p q.block) = .ok (alignDown p q.block) s := by
    exact dataError_none hdc harm q _
  unfold State.check State.accessCheck
  simp only [h1, h2, h3, hv, hc, hu, h4, Bool.false_and, Bool.false_eq_true, if_false]

/-! ## Data types of the F and V registers -/

/-- Data that suit their use are the register's content, and nothing is drawn. -/
theorem useV_suits {s : State} {r : Reg} {u : DataKind} (h : s.suits r u = true) : s.useV r u = (s.readV r, s) := by
  simp only [State.useV, if_pos h]

theorem useF_suits {s : State} {r : Reg} {u : DataKind} (h : s.suits r u = true) : s.useF r u = (s.readF r, s) := by
  simp only [State.useF, if_pos h]

/-- A use draws at most one free value and changes nothing else. -/
theorem useV_state (s : State) (r : Reg) (u : DataKind) : (s.useV r u).2 = s ∨ (s.useV r u).2 = s.drawn := by
  unfold State.useV; split
  · exact .inl rfl
  · exact .inr rfl

theorem useF_state (s : State) (r : Reg) (u : DataKind) : (s.useF r u).2 = s ∨ (s.useF r u).2 = s.drawn := by
  unfold State.useF; split
  · exact .inl rfl
  · exact .inr rfl

@[simp] theorem kept_useV (s : State) (r : Reg) (u : DataKind) : (s.useV r u).2.kept = s.kept := by
  unfold State.useV; split <;> rfl

@[simp] theorem kept_useF (s : State) (r : Reg) (u : DataKind) : (s.useF r u).2.kept = s.kept := by
  unfold State.useF; split <;> rfl

/-! ## The target match -/

/-- A transfer whose match is not left open: IACV where it matches, else the transfer. -/
theorem atTarget_sure {s : State} {t : Word} (h : s.idaSure t) (go : State → State) :
    s.atTarget t go = if s.idaMatch t then s.raiseIdaMatch t else go s := by
  have h' : s.idaOpen t = false := h
  simp [State.atTarget, State.idaHit, h']

/-- What the target match answers: IACV or the transfer, after at most one draw. -/
theorem atTarget_cases (s : State) (t : Word) (go : State → State) :
    ∃ u, (u = s ∨ u = s.drawn) ∧ (s.atTarget t go = u.raiseIdaMatch t ∨ s.atTarget t go = go u) := by
  unfold State.atTarget
  dsimp only
  refine ⟨if s.idaOpen t then s.drawn else s, ?_, ?_⟩
  · split
    · exact .inr rfl
    · exact .inl rfl
  · split
    · exact .inl rfl
    · exact .inr rfl

end Sys2Proof.Machine
end

