-- ==== Sys2Proof/Laws/Step.lean ====
section
/-! SUPPORT. What the parts of a step that are no instruction can do. -/

namespace Sys2Proof.Machine

/-! ## Time and event counters -/

@[simp] theorem keptByTime_setPending (s : State) (n : BitVec 8) : (s.setPending n).keptByTime = s.keptByTime := rfl

@[simp] theorem keptByTime_drawn (s : State) : s.drawn.keptByTime = s.keptByTime := rfl

@[simp] theorem keptByTime_countPc0 (s : State) (n : Nat) : (s.countPc0 n).keptByTime = s.keptByTime := by
  unfold State.countPc0; dsimp only; split <;> rfl

@[simp] theorem keptByTime_countPc1 (s : State) (n : Nat) : (s.countPc1 n).keptByTime = s.keptByTime := by
  unfold State.countPc1; dsimp only; split <;> rfl

@[simp] theorem keptByTime_countEvents (s : State) (m : BitVec 2) (c : EventClass) (r : Bool) :
    (s.countEvents m c r).keptByTime = s.keptByTime := by
  unfold State.countEvents
  dsimp only
  split <;> split <;> simp

@[simp] theorem keptByTime_tickTc (s : State) (n : Nat) : (s.tickTc n).keptByTime = s.keptByTime := by
  unfold State.tickTc; split <;> rfl

@[simp] theorem keptByTime_tickTimer (s : State) (n : Nat) : (s.tickTimer n).keptByTime = s.keptByTime := by
  unfold State.tickTimer
  split
  · dsimp only
    generalize (if s.timerWild = true then s.free.getLsbD 0
      else decide (0 < n) && decide (s.ibox.timerTh.toNat ≤ s.timerCount.toNat + n)) = fires
    cases fires
    · rfl
    · exact keptByTime_setPending _ _
  · rfl

@[simp] theorem keptByTime_tickHserr (s : State) (n : Nat) : (s.tickHserr n).keptByTime = s.keptByTime := by
  unfold State.tickHserr; split <;> rfl

@[simp] theorem keptByTime_tickMerge (s : State) (n : Nat) : (s.tickMerge n).keptByTime = s.keptByTime := rfl

@[simp] theorem keptByTime_clockTick (s : State) : s.clockTick.keptByTime = s.keptByTime := by
  unfold State.clockTick; simp

@[simp] theorem keptByTime_idle (s : State) (m : BitVec 2) : (s.idle m).keptByTime = s.keptByTime := by
  unfold State.idle; simp

@[simp] theorem keptByTime_finish (i : Instr) (s t : State) : (finish i s t).keptByTime = t.keptByTime := by
  unfold finish; simp

/-! ## Late errors -/

@[simp] theorem kept_reportOrWait (s : State) (b : BitVec 5) : (s.reportOrWait b).kept = s.kept := by
  unfold State.reportOrWait; split
  · rw [kept_scError, kept_drawn]
  · rfl

@[simp] theorem kept_reportLate (s : State) : s.reportLate.kept = s.kept := by
  have h (bs : List (BitVec 5)) (t : State) : (bs.foldl State.reportOrWait t).kept = t.kept := by
    induction bs generalizing t with
    | nil => rfl
    | cons b bs ih => exact (ih _).trans (kept_reportOrWait t b)
  unfold State.reportLate; split
  · rfl
  · exact h _ _

/-! ## Fetch -/

@[simp] theorem kept_icacheInsert (s : State) (l : ICacheLine) : (s.icacheInsert l).kept = s.kept := by
  unfold State.icacheInsert; dsimp only; split <;> rfl

@[simp] theorem kept_icacheFill (s : State) (e : Option ItbEntry) (p : PAddr) : (s.icacheFill e p).kept = s.kept := by
  unfold State.icacheFill; split
  · rfl
  · dsimp only; rw [kept_icacheInsert]; split <;> rfl

/-- The state a fetch hands on. -/
def Fetched.state : Fetched → State
  | .word s => s
  | .trap s => s
  | .substitute s => s

@[simp] theorem kept_fetchError (s : State) (i : Nat) : (s.fetchError i).state.kept = s.kept := by
  unfold State.fetchError; dsimp only; split <;> rfl

@[simp] theorem kept_fetchWord (s : State) (l : Option ICacheLine) (p : PAddr) : (s.fetchWord l p).2.kept = s.kept := by
  unfold State.fetchWord; dsimp only
  split
  · split <;> rfl
  · dsimp only; split <;> rfl

@[simp] theorem kept_fetchPair (s : State) (l : Option ICacheLine) (p : PAddr) : (s.fetchPair l p).state.kept = s.kept :=
  (kept_fetchWord _ _ _).trans (kept_fetchWord _ _ _)

theorem kept_fetchMemory (s : State) (e : Option ItbEntry) (p : PAddr) : (s.fetchMemory e p).state.kept = s.kept := by
  have hn : ({ s with armedFetch := none } : State).kept = s.kept := rfl
  unfold State.fetchMemory
  dsimp only
  generalize ({ s with armedFetch := none } : State) = t at hn ⊢
  split
  · simp
  · split
    · split
      · simp
      · split <;> simp [hn]
    · split <;> simp [hn]
    · simp

theorem kept_fetchMiss (s : State) : s.fetchMiss.state.kept = s.kept := by
  unfold State.fetchMiss
  split
  · exact kept_fetchMemory _ _ _
  · split
    · exact kept_fetchMemory _ _ _
    · rfl
    · rfl

theorem kept_fetchFrom (ls : List ICacheLine) (s : State) : (fetchFrom ls s).state.kept = s.kept := by
  induction ls generalizing s with
  | nil => exact kept_fetchMiss s
  | cons l ls ih =>
    unfold fetchFrom
    split
    · simp
    · split
      · simp
      · rw [ih]; rfl

@[simp] theorem kept_icacheAged (s : State) : s.icacheAged.kept = s.kept := by
  unfold State.icacheAged; split <;> rfl

@[simp] theorem kept_icacheChecked (s : State) : s.icacheChecked.kept = s.kept := by
  have h (t : State) (i : Nat) (x : BitVec 6) : (t.icParityError i x).kept = t.kept := kept_countCorrected _
  unfold State.icacheChecked
  split
  · exact h _ _ _
  · split
    · exact h _ _ _
    · rfl

/-- Whatever a fetch answers, `kept` stays. -/
theorem kept_fetch (s : State) : s.fetch.state.kept = s.kept := by
  unfold State.fetch
  split
  · unfold State.raiseBadFetch Fetched.state; dsimp only; split <;> rfl
  · have h : ({ s with retJump := none } : State).kept = s.kept := rfl
    generalize ({ s with retJump := none } : State) = t at h ⊢
    rw [← h]
    exact (kept_fetchFrom _ _).trans ((kept_icacheChecked _).trans (kept_icacheAged _))

/-- A fetch that misses in an empty instruction cache goes to memory, to the location the place of the fetch names. -/
theorem fetch_of_empty {s : State} (hb : s.badFetch = false) (hc : s.icache = []) :
    s.fetch = ({ s with retJump := none } : State).fetchMiss := by
  unfold State.fetch
  rw [if_neg (by simp [hb])]
  have hc' : ({ s with retJump := none } : State).icache = [] := hc
  generalize ({ s with retJump := none } : State) = t at hc' ⊢
  simp [State.icacheAged, State.icacheChecked, State.fetchCached, fetchFrom, hc']

/-! ## The step -/

/-- A next state of an instruction boundary: the entry of an interrupt, a trap of the fetch or a halted core's waiting,
which keep `keptByTime`; the substitute instruction; or a decoded instruction's next state, finished. -/
theorem boundary_next {s t : State} (h : boundary s = .next t) :
    t.keptByTime = s.keptByTime ∨ (∃ u, u.kept = s.kept ∧ t = runSubstitute u) ∨
      ∃ i u v, u.kept = s.kept ∧ exec i u = .next v ∧ t = finish i u v := by
  unfold boundary at h
  dsimp only at h
  have hl := kept_reportLate s
  split at h
  · cases h; left; rw [keptByTime_idle]; exact keptByTime_of_kept ((kept_enterInterrupt _ _).trans hl)
  · split at h
    · cases h; left; rw [keptByTime_idle]; exact keptByTime_of_kept hl
    · unfold runOne at h
      have hf := kept_fetch { s.reportLate with lastExc := none }
      split at h
      · rename_i u hu
        rw [hu] at hf
        cases h; left
        rw [keptByTime_idle]; exact keptByTime_of_kept (hf.trans hl)
      · rename_i u hu
        rw [hu] at hf
        cases h
        exact .inr (.inl ⟨u, hf.trans hl, rfl⟩)
      · rename_i u hu
        rw [hu] at hf
        unfold runFetched at h
        split at h
        · cases h
        · split at h
          · cases h; exact .inr (.inr ⟨_, u, _, hf.trans hl, ‹_›, rfl⟩)
          · cases h
          · cases h

/-- Everything a step with no early store can do: an event of the environment, nothing while asleep, or an instruction
boundary. -/
theorem stepInOrder_next {s t : State} (h : stepInOrder s = .next t) :
    (∃ e rest, s.inputs = some e :: rest ∧ t = ({ s with inputs := rest } : State).apply e) ∨
      (s.coreState = .asleep ∧ t = { s with inputs := s.inputs.tail }) ∨
      boundary { s with inputs := s.inputs.tail } = .next t := by
  unfold stepInOrder at h
  split at h
  · cases h; exact .inl ⟨_, _, ‹_›, rfl⟩
  · rename_i rest hi
    have ht : s.inputs.tail = rest := by rw [hi]; rfl
    rw [ht]
    split at h
    · cases h; exact .inr (.inl ⟨‹_›, rfl⟩)
    · exact .inr (.inr h)
  · rename_i hi
    have ht : ({ s with inputs := s.inputs.tail } : State) = s := by rw [hi]; cases s; simp_all
    rw [ht]
    split at h
    · cases h; exact .inr (.inl ⟨‹_›, rfl⟩)
    · exact .inr (.inr h)

/-- What a store that may take effect early does: nothing, or it takes effect. -/
theorem foretell_cases (s : State) (p : EarlyStore) :
    s.foretell p = s ∨ (p.addr + p.size ≤ s.plat.memSize ∧
      s.foretell p = s.putEarly p) := by
  unfold State.foretell
  dsimp only
  split
  · rename_i h
    simp only [State.mayBeEarly, Bool.and_eq_true, decide_eq_true_eq] at h
    exact .inr ⟨h.1.1.2, rfl⟩
  · exact .inl rfl

/-- It changes nothing but what `withoutMemory` leaves out. -/
@[simp] theorem withoutMemory_foretell (s : State) (p : EarlyStore) : (s.foretell p).withoutMemory = s.withoutMemory := by
  obtain h | ⟨-, h⟩ := foretell_cases s p
  · rw [h]
  · rw [h, withoutMemory_putEarly]

/-- It keeps the canonical form of memory. -/
theorem foretell_wf {s : State} (p : EarlyStore) (hs : s.plat.memSize ≤ 2 ^ 46) (hw : Memory.wf s.mem = true) :
    Memory.wf (s.foretell p).mem = true := by
  obtain h | ⟨hp, h⟩ := foretell_cases s p
  · rw [h]; exact hw
  · rw [h]; exact putEarly_wf hw (hp.trans hs)

/-- Everything a step can do: a store takes effect early, an event of the environment, nothing while asleep, or an
instruction boundary. -/
theorem step_next {s t : State} (h : step s = .next t) :
    (∃ p rest, s.inputs = some (.earlyStore p) :: rest ∧ t = ({ s with inputs := rest } : State).foretell p) ∨
      (∃ e rest, s.inputs = some e :: rest ∧ t = ({ s with inputs := rest } : State).apply e) ∨
      (s.coreState = .asleep ∧ t = { s with inputs := s.inputs.tail }) ∨
      boundary { s with inputs := s.inputs.tail } = .next t := by
  unfold step at h
  split at h
  · cases h; exact .inl ⟨_, _, ‹_›, rfl⟩
  · exact .inr (stepInOrder_next h)

/-! ## CSR writes -/

/-- A PRI_WCSR changes no general, vector or floating-point register, no memory, no lock state, no parameter. -/
theorem csrWrite_frame {s t : State} {c : Csr} {d : Word} (h : s.csrWrite c d = .next t) :
    t.gpr = s.gpr ∧ t.sr = s.sr ∧ t.vr = s.vr ∧ t.fpcr = s.fpcr ∧ t.mem = s.mem ∧ t.lock = s.lock ∧ t.plat = s.plat ∧
      t.pc = s.pc := by
  cases c <;> simp only [State.csrWrite] at h
  case itbPte => cases h; unfold State.itbFill; dsimp only; split <;> simp
  case dtbPte => cases h; unfold State.dtbFill; dsimp only; split <;> (try split) <;> simp
  case softErr => cases h; split <;> simp
  case hardErr => cases h; split <;> simp
  case dcCtl => split at h <;> cases h; simp
  case scCtl => split at h <;> cases h; simp
  case intReq => cases h; unfold State.writeIntReq; dsimp only; split <;> (try split) <;> simp
  all_goals cases h; exact ⟨rfl, rfl, rfl, rfl, rfl, rfl, rfl, rfl⟩

end Sys2Proof.Machine
end

