-- ==== Sys2Proof/Tests/Slice0.lean ====
section
/-! SUPPORT. Tests: words written out from the spec's encodings, outcomes of the vectors of spec/95_test_vectors.md,
terms that WellFormed refuses, and, for every statement with hypotheses, a state and operands that meet them. -/

namespace Sys2Proof.Tests

open Sys2Proof.Machine

set_option Elab.async false

/-! ## Helpers -/

/-- A platform that decides the point the default leaves open (log 43). -/
def platform : Platform := { Platform.default with substituteAsWritten := false }

/-- VM at 0x1000: addresses with bit 52 = 0 are used as they are (R223). PRI_BASE is 0x900000 as in the vectors. -/
def vm : State := { State.reset with pc := 0x1001, ibox := { IBox.reset with priBase := 0x900000 }, plat := platform }

/-- The same core in HM. -/
def hm : State := { vm with pc := 0x1000 }

/-- The same core in KM and UM. -/
def km : State := { vm with pc := 0x1002 }

def um : State := { vm with pc := 0x1003 }

/-- A state with a 64-bit register, a floating-point register, or memory of `n` bytes set. -/
def reg (s : State) (r : Reg) (v : Word) : State := { s with gpr := s.gpr.set r.toNat v r.isLt }

def freg (s : State) (r : Reg) (v : Word) : State := { s with vr := s.vr.set r.toNat (v.setWidth 256) r.isLt }

def vreg (s : State) (r : Reg) (v : Vec) : State := { s with vr := s.vr.set r.toNat v r.isLt }

def put (s : State) (a n v : Nat) : State := { s with mem := writeBytes s.mem a n (BitVec.ofNat 256 v) }

/-- The answer is a next state with property `p`. -/
def gives (r : Result) (p : State → Bool) : Bool :=
  match r with
  | .next t => p t
  | _ => false

/-- `n` bytes of memory as a number. -/
def bytes (s : State) (a n : Nat) : Nat := (readBytes s.mem a n).toNat

/-! ## Well-formed terms (R366, R406) -/

theorem test_wellformed_refuses_nop_as_bis : (Instr.bis 31 31 31).wellFormed = false := by decide

theorem test_wellformed_takes_others :
    ∀ i ∈ ([.bis 0 0 0, .bis 31 31 0, .bis 31 0 31, .bis 0 31 31, .bisL 31 31 31, .nop] : List Instr),
      i.wellFormed = true := by decide

/-! ## Decoding and encoding: words of spec/95_test_vectors.md part E, and words written from R361 to R368 -/

theorem test_decode_control :
    ([
      (0x02000083, .sysCall 0x83), (0x00000083, .sysCallB 0x83), (0x075B0000, .call 26 27 0),
      (0x0BFA0000, .ret 31 26 0), (0x0FFB0000, .jmp 31 27 0), (0x13E00003, .br 31 3), (0x175FFFFF, .bsr 26 0x1FFFFF),
      (0xC23FFFF3, .beq 17 0x1FFFF3), (0xC41FFFFC, .bne 0 0x1FFFFC), (0xC8200001, .blt 1 1), (0xCC200001, .ble 1 1),
      (0xD0200001, .bgt 1 1), (0xD4200001, .bge 1 1), (0xD8200001, .blbc 1 1), (0xDC200001, .blbs 1 1),
      (0xE0200001, .fbeq 1 1), (0xE4200001, .fbne 1 1), (0xE8200001, .fblt 1 1), (0xEC200001, .fble 1 1),
      (0xF0200001, .fbgt 1 1), (0xF4200001, .fbge 1 1)].all
      fun p : InsnWord × Instr => decodeTable p.1 == some p.2 && encode p.2 == some p.1) = true := by decide +kernel

theorem test_decode_system :
    ([
      (0x1BFF0000, .memb), (0x1BFF0001, .imemb), (0x183F0020, .rtc 1 31), (0x183F0040, .rcid 1), (0x1BFF0080, .halt),
      (0x197F1000, .rdF 11), (0x199F1020, .wrF 12), (0x183F1040, .rtid 1), (0x191FFE0E, .priRcsr 8 14),
      (0x193FFF10, .priWcsr 9 16), (0x1D000000, .priRet 8), (0x1D100000, .priRetB 8)].all
      fun p : InsnWord × Instr => decodeTable p.1 == some p.2 && encode p.2 == some p.1) = true := by decide +kernel

theorem test_decode_atomic_lock_nc :
    ([
      (0x21700000, .lldw 11 16 0), (0x21701000, .lldl 11 16 0), (0x20432008, .ldwInc 2 3 8),
      (0x20433008, .ldlInc 2 3 8), (0x20434008, .ldwDec 2 3 8), (0x20435008, .ldlDec 2 3 8),
      (0x20006000, .ldwSet 0 0 0), (0x20007000, .ldlSet 0 0 0), (0x21708000, .lstw 11 16 0),
      (0x21709000, .lstl 11 16 0), (0x2022AFFC, .ldwNc 1 2 0xFFC), (0x2022B008, .ldlNc 1 2 8),
      (0x2022D004, .stwNc 1 2 4), (0x2022E008, .stlNc 1 2 8)].all
      fun p : InsnWord × Instr => decodeTable p.1 == some p.2 && encode p.2 == some p.1) = true := by decide +kernel

theorem test_decode_vector_memory :
    ([
      (0x2022C008, .lddNc 1 2 8), (0x2022F008, .stdNc 1 2 8), (0x70220004, .vldwU 1 2 4), (0x70221004, .vstwU 1 2 4),
      (0x70222004, .vldsU 1 2 4), (0x70223004, .vstsU 1 2 4), (0x70224008, .vlddU 1 2 8), (0x70225008, .vstdU 1 2 8),
      (0x70228004, .vstwUl 1 2 4), (0x70229024, .vstwUh 1 2 0x24), (0x7022A004, .vstsUl 1 2 4),
      (0x7022B014, .vstsUh 1 2 20), (0x7183C008, .vstdUl 12 3 8), (0x7183D028, .vstdUh 12 3 0x28),
      (0x7022E020, .vlddNc 1 2 0x20), (0x71A6F000, .vstdNc 13 6 0)].all
      fun p : InsnWord × Instr => decodeTable p.1 == some p.2 && encode p.2 == some p.1) = true := by decide +kernel

theorem test_decode_memory :
    ([
      (0x24220004, .ldwe 1 2 4), (0x28220004, .ldse 1 2 4), (0x2C220008, .ldde 1 2 8), (0x30220010, .vlds 1 2 16),
      (0x35A50000, .vldd 13 5 0), (0x38220010, .vsts 1 2 16), (0x3C220020, .vstd 1 2 0x20),
      (0x80220001, .ldbu 1 2 1), (0x84220002, .ldhu 1 2 2), (0x88220002, .ldw 1 2 2), (0x8C220008, .ldl 1 2 8),
      (0x90220005, .ldlU 1 2 5), (0x98220004, .flds 1 2 4), (0x9C220008, .fldd 1 2 8), (0xA0220001, .stb 1 2 1),
      (0xA4220002, .sth 1 2 2), (0xABE00000, .stw 31 0 0), (0xAC3EFFF8, .stl 1 30 0xFFF8), (0xB0220005, .stlU 1 2 5),
      (0xB8220004, .fsts 1 2 4), (0xBC220008, .fstd 1 2 8), (0xF8A50080, .ldi 5 5 0x80),
      (0xFC3F1234, .ldih 1 31 0x1234)].all
      fun p : InsnWord × Instr => decodeTable p.1 == some p.2 && encode p.2 == some p.1) = true := by decide +kernel

theorem test_decode_operate :
    ([
      (0x40220003, .addw 1 2 3), (0x40220023, .subw 1 2 3), (0x40220103, .addl 1 2 3), (0x40220123, .subl 1 2 3),
      (0x40220203, .mulw 1 2 3), (0x40220303, .mull 1 2 3), (0x40220323, .umulh 1 2 3), (0x40870511, .cmpeq 4 7 17),
      (0x40220523, .cmplt 1 2 3), (0x40220543, .cmple 1 2 3), (0x40220563, .cmpult 1 2 3),
      (0x40220583, .cmpule 1 2 3), (0x40220703, .and 1 2 3), (0x40220723, .bic 1 2 3), (0x4171074B, .bis 11 17 11),
      (0x40220763, .ornot 1 2 3), (0x40220783, .xor 1 2 3), (0x402207A3, .eqv 1 2 3), (0x43FF075F, .nop)].all
      fun p : InsnWord × Instr => decodeTable p.1 == some p.2 && encode p.2 == some p.1) = true := by decide +kernel

theorem test_decode_operate_literal :
    ([
      (0x48808004, .addwL 4 4 4), (0x48390023, .subwL 1 200 3), (0x48390103, .addlL 1 200 3),
      (0x48402122, .sublL 2 1 2), (0x48390203, .mulwL 1 200 3), (0x48390303, .mullL 1 200 3),
      (0x48390323, .umulhL 1 200 3), (0x48390503, .cmpeqL 1 200 3), (0x48390523, .cmpltL 1 200 3),
      (0x48390543, .cmpleL 1 200 3), (0x48390563, .cmpultL 1 200 3), (0x483FE583, .cmpuleL 1 0xFF 3),
      (0x48390703, .andL 1 200 3), (0x48390723, .bicL 1 200 3), (0x48390743, .bisL 1 200 3),
      (0x48390763, .ornotL 1 200 3), (0x4960278B, .xorL 11 1 11), (0x483907A3, .eqvL 1 200 3)].all
      fun p : InsnWord × Instr => decodeTable p.1 == some p.2 && encode p.2 == some p.1) = true := by decide +kernel

theorem test_decode_float :
    ([
      (0x403F0E02, .fimovs 1 2), (0x403F0F02, .fimovd 1 2), (0x60220023, .faddd 1 2 3), (0x603F0802, .ifmovs 1 2),
      (0x603F0822, .ifmovd 1 2), (0x603F0A1F, .rfpcr 1), (0x603F0A3F, .wfpcr 1), (0x63FF0A9F, .setfpec0),
      (0x63FF0ABF, .setfpec1), (0x63FF0ADF, .setfpec2), (0x63FF0AFF, .setfpec3), (0x68221023, .vaddd 1 2 3)].all
      fun p : InsnWord × Instr => decodeTable p.1 == some p.2 && encode p.2 == some p.1) = true := by decide +kernel


theorem test_decode_refuses_words_of_no_row :
    ([0x94000000, 0xB4000000, 0x18000002, 0x400000E3, 0x63FF0B1F, 0x70006000, 0x4C000000, 0x44000000,
      0x54000000, 0x60220043, 0x68221003].all fun w : InsnWord => decodeTable w == none) = true := by decide +kernel

/-- A field an instruction does not use may hold anything (R364). -/
theorem test_decode_ignores_unused_fields :
    ([(0x18000000, .memb), (0x18410001, .imemb), (0x18200040, .rcid 1), (0x1C2FFFFF, .priRet 1)].all
      fun p : InsnWord × Instr => decodeTable p.1 == some p.2) = true := by decide +kernel

/-- Rows without an encoding, under words a platform might give them (R355, R369). -/
def platformWords : List (InsnWord × Instr) :=
  [(0x94220008, .priLdlP 1 2 8), (0x94221008, .priLdwP 1 2 8), (0xB4220008, .priStlP 1 2 8), (0x78220000, .flushd 2 0)]

theorem test_supplement :
    (platformWords.all fun p => decode platformWords p.1 == some p.2) = true ∧ decode [] 0x94220008 = none := by decide +kernel

/-! ## Outcomes from the vectors of spec/95_test_vectors.md -/

theorem test_reset_fetches_a_placed_word :
    gives (step ((reg (reg hm 1 5) 2 7).withFetchWord 32 0x40220003)) (fun t => t.readReg 3 == 12 && t.pc == 0x1004)
      = true := by decide +kernel

/-- P1 to P5. -/
theorem test_sys_call :
    gives (exec (.sysCall 0x83) { um with pc := 0x120000403 })
        (fun t => t.pc == 0x906180 && t.sr[9] == 0x120000407) = true ∧
      gives (exec (.sysCall 0x05) { um with pc := 0x120000403, ir := 0x02000005 })
        (fun t => t.pc == 0x900D80 && t.ibox.iglInst == 0x02000005 && t.ibox.excPc == 0x120000403) = true ∧
      gives (exec (.sysCall 0x05) { km with pc := 0x120000402 })
        (fun t => t.pc == 0x904280 && t.sr[9] == 0x120000406) = true ∧
      gives (exec (.sysCall 0x45) { vm with pc := 0x120000401 }) (fun t => t.pc == 0x902280) = true := by decide +kernel

/-- SYS_CALL/b and the substitute instruction under each platform (R382 and R699, R383 and R335). -/
theorem test_sys_call_b :
    ([false, true].all fun b =>
      let s : State := { um with plat := { platform with sysCallBRecordsPc := b, substituteAsWritten := b } }
      gives (exec (.sysCallB 0x83) s) (fun t => t.pc == 0x906180 && t.ibox.excPc == if b then 0x1003 else 0)
        && s.enterSubstitute.pc == if b then 0x905D80 else 0x907D80) = true := by decide +kernel

/-- P9, P11, P13. -/
theorem test_privileged :
    gives (exec (.priRet 8) (reg hm 8 0x120000407)) (fun t => t.pc == 0x120000407) = true ∧
      gives (exec (.priRet 8) (reg vm 8 0x120000407)) (fun t => t.pc == 0x900D80) = true ∧
      gives (exec (.priWcsr 9 0x10) (reg hm 9 0x901234)) (fun t => t.ibox.priBase == 0x900000) = true := by decide +kernel

/-- P15 to P17: UPCR by index bits. -/
theorem test_upcr_index_bits :
    gives (exec (.priWcsr 9 0x21) (reg hm 9 0x28000000005)) (fun t => t.ibox.upcr == 5) = true ∧
      gives (exec (.priWcsr 9 0x22) (reg hm 9 0x28000000005)) (fun t => t.ibox.upcr == 0x28000000007) = true ∧
      gives (exec (.priWcsr 9 0x20) (reg hm 9 0x28000000005)) (fun t => t.ibox.upcr == 7) = true := by decide +kernel

/-- The memory of the load vectors. -/
def loads : State := put (reg (reg vm 2 0x30000) 1 0x1122334455667788) 0x30000 8 0x8786858483828180

/-- M1, M2, M3, M5, M6. -/
theorem test_loads :
    gives (exec (.ldbu 1 2 1) loads) (fun t => t.readReg 1 == 0x81) = true ∧
      gives (exec (.ldhu 1 2 2) loads) (fun t => t.readReg 1 == 0x8382) = true ∧
      gives (exec (.ldw 1 2 4) loads) (fun t => t.readReg 1 == 0xFFFFFFFF87868584) = true ∧
      gives (exec (.ldl 1 2 0) loads) (fun t => t.readReg 1 == 0x8786858483828180) = true ∧
      gives (exec (.ldhu 1 2 1) { loads with ir := 0x84220001 }) (fun t =>
        t.dbox.dva == 0x30001 && t.dbox.dsStat == 0x210 && t.ibox.excSum == 0x100 && t.pc == 0x900B00)
        = true := by decide +kernel

/-- M9 to M13. -/
theorem test_stores :
    gives (exec (.stb 1 2 1) loads) (fun t => bytes t 0x30000 8 == 0x8786858483828880) = true ∧
      gives (exec (.sth 1 2 2) loads) (fun t => bytes t 0x30000 8 == 0x8786858477888180) = true ∧
      gives (exec (.stw 1 2 4) loads) (fun t => bytes t 0x30000 8 == 0x5566778883828180) = true ∧
      gives (exec (.stl 1 2 0) loads) (fun t => bytes t 0x30000 8 == 0x1122334455667788) = true ∧
      gives (exec (.stw 1 2 2) { loads with ir := 0xA8220002 }) (fun t =>
        t.dbox.dva == 0x30002 && t.dbox.dsStat == 0x2A1) = true := by decide +kernel

/-- The conversions of FLDS: 1.0, -2.0, the zeros, the infinities, a NaN, the smallest normal number (R434). -/
theorem test_flds_conversion :
    ([(0x3F800000, 0x3FF0000000000000), (0xC0000000, 0xC000000000000000), (0x80000000, 0x8000000000000000),
      (0x7F800000, 0x7FF0000000000000), (0xFF800000, 0xFFF0000000000000), (0x7FC00000, 0x7FF8000000000000),
      (0x00800000, 0x3810000000000000)].all fun p : BitVec 32 × Word => fldsConvert p.1 == p.2) = true := by decide +kernel

/-- Bytes 0 to 63 at 0x30000, A0 to BF in V12. -/
def vectors : State :=
  vreg (put (put (reg vm 2 0x30000) 0x30000 32 0x1F1E1D1C1B1A191817161514131211100F0E0D0C0B0A09080706050403020100)
    0x30020 32 0x3F3E3D3C3B3A393837363534333231302F2E2D2C2B2A29282726252423222120)
    12 0xBFBEBDBCBBBAB9B8B7B6B5B4B3B2B1B0AFAEADACABAAA9A8A7A6A5A4A3A2A1A0

/-- V1, V3, V4, V5. -/
theorem test_vector_loads :
    gives (exec (.vldd 1 2 0) vectors) (fun t =>
        elem (t.readV 1) 3 == 0x1F1E1D1C1B1A1918 && elem (t.readV 1) 0 == 0x0706050403020100) = true ∧
      gives (exec (.ldde 1 2 8) vectors) (fun t => t.readV 1 == splat64 0x0F0E0D0C0B0A0908) = true ∧
      gives (exec (.ldwe 1 2 4) vectors) (fun t => t.readV 1 == splat32 0x07060504) = true ∧
      gives (exec (.vlddU 1 2 8) vectors) (fun t => elem (t.readV 1) 3 == 0x1F1E1D1C1B1A1918) = true := by decide +kernel

/-- V6 to V8. -/
theorem test_partial_vector_stores :
    gives (exec (.vstdUl 12 2 8) vectors) (fun t =>
        bytes t 0x30008 24 == 0xB7B6B5B4B3B2B1B0AFAEADACABAAA9A8A7A6A5A4A3A2A1A0 &&
        bytes t 0x30000 8 == 0x0706050403020100 && bytes t 0x30020 1 == 0x20) = true ∧
      gives (exec (.vstdUh 12 2 40) vectors) (fun t =>
        bytes t 0x30020 9 == 0x28BFBEBDBCBBBAB9B8 && bytes t 0x3001F 1 == 0x1F) = true ∧
      gives (exec (.vstdUh 12 2 32) vectors) (fun t => t.mem == vectors.mem && t.pc == 0x1005) = true := by decide +kernel

/-- DC_CTL with some bits set beside those of reset. -/
def dcOn (s : State) (bits : Word) : State := { s with dbox := { s.dbox with dcCtl := s.dbox.dcCtl ||| bits } }

/-- An error in the data cache: a load faults as often as it meets it, an ECC error with its report on, a tag error with its
own on; else a tag error does nothing to it. FLUSHD drops the clean line and with it the error (R317 to R319). -/
theorem test_data_cache_error :
    let s : CellErrorKind → Word → State := fun k on =>
      { dcOn loads on with dcErrors := [{ addr := 0x30000, size := 8, kind := k }], ir := 0x8C220000 }
    gives (exec (.ldl 1 2 0) (s .multi 0x200)) (fun t =>
        t.pc == 0x900C80 && t.dbox.dsStat == 0x4230 && t.dcErrors.length == 1 && t.mem == loads.mem) = true ∧
      gives (exec (.ldl 1 2 0) (s .tag 0x10)) (fun t =>
        t.pc == 0x900C80 && t.dbox.dsStat == 0x630 && t.dcErrors.length == 1 && t.ibox.hserrCnt == 1) = true ∧
      gives (exec (.ldl 1 2 0) (s .tag 0x200)) (fun t =>
        t.pc == 0x1005 && t.readReg 1 == 0x8786858483828180 && t.dcErrors.length == 1) = true ∧
      (let e : CellError := { addr := 0x40000, size := 128, kind := .tag, flushed := [0x200, 0x400, 0xA00, 0xC00, 0xE00, 0x1000, 0] }
       gives (exec (.flushd 2 0) { loads with dcErrors := [e] }) fun t => t.dcErrors.isEmpty) = true ∧
      gives (exec (.flushd 2 0) (s .multi 0x200)) (fun t => t.pc == 0x1005 && t.dcErrors.isEmpty && t.mem == loads.mem)
        = true := by decide +kernel

/-- Of seven other lines of its set the access to the last one drives a line out; one more load of the same line does not
(R280). The test bits of DC_CTL force an error of each eight bytes written, and of the line's tag (R151). -/
theorem test_replacement_and_forced_errors :
    let s : State := { loads with
      dcErrors := [{ addr := 0x40000, size := 8, kind := .single, others := [0xC00, 0xC40, 0xC80, 0xCC0, 0xD00, 0xD40] }] }
    gives (exec (.ldl 1 2 0) (reg s 2 0x6C000)) (fun t => t.dcErrors.isEmpty) = true ∧
      gives (exec (.ldl 1 2 0) (reg s 2 0x60000)) (fun t => t.dcErrors == s.dcErrors) = true ∧
      ((dcOn vm 0x5000).forceErrors 0x3000C 8).dcErrors =
        [{ addr := 0x30008, size := 8, kind := .single }, { addr := 0x30010, size := 8, kind := .single },
          { addr := 0x30000, size := 128, kind := .tag }] := by decide +kernel

/-- An error goes with its line by FLUSHD: recorded if the line is dirty, stored to since it was filled, else dropped with it,
whatever bytes of it stand in the second level; a flush of another line of its set starts its count anew (R280, R318). -/
theorem test_dirty_lines :
    let s : List Nat → State := fun dirty => { loads with
      sbox := { loads.sbox with scCtl := 0x200 }, unflushed := [0x40000], dcDirty := dirty
      dcErrors := [{ addr := 0x40000, size := 8, kind := .single, others := [0xC00] }] }
    gives (exec (.flushd 2 0) (reg (s [0x800]) 2 0x40000)) (fun t =>
        t.sbox.scStat == 0x10 && t.dcErrors.isEmpty && t.dcDirty.isEmpty) = true ∧
      gives (exec (.flushd 2 0) (reg (s []) 2 0x40000)) (fun t => t.sbox.scStat == 0 && t.dcErrors.isEmpty) = true ∧
      gives (exec (.flushd 2 0) (reg (s []) 2 0x60000)) (fun t => t.dcErrors.map CellError.others == [[]]) = true ∧
      gives (exec (.stl 1 2 0) (reg vm 2 0x40000)) (fun t => t.dcDirty == [0x800]) = true := by decide +kernel

/-- No event but a wake-up or a reset changes what is pending while the core sleeps (R677, R728). -/
theorem test_asleep_keeps_pending :
    let s : State := { vm with
      coreState := .asleep, sbox := { vm.sbox with scCtl := 0x200 }, dcDirty := [0x800]
      dcErrors := [{ addr := 0x40000, size := 8, kind := .multi }] }
    ([.agentWrite 0x40000 7, .lineReplaced 0x800, .sleepInterrupt, .hwError .robError] : List EnvEvent).all (fun e =>
      (s.apply e).ibox.pending == 0 && (s.apply e).coreState == .asleep) = true := by decide +kernel

/-- A message to a disconnected core gets an illegal-address response, and is not sent; to another one it is, whatever PA[46] (R331, R424, R662). -/
theorem test_message_to_disconnected_core :
    let s : State := { vm with plat := { vm.plat with iorMap := [(0x800000000000, .mailBox 3)] } }
    gives (exec (.stl 1 2 0) (reg ((reg s 1 5).apply (.coreConnection 3 false)) 2 0x800000000000)) (fun t =>
        t.lateErrors == [7] && t.outputs == []) = true ∧
      gives (exec (.stl 1 2 0) (reg (reg s 1 5) 2 0xC00000000000)) (fun t =>
        t.lateErrors == [] && t.outputs.getLast? == some (.mail 3 5)) = true := by decide +kernel

/-- A core at a word in non-cacheable memory, with the event that the store of R1 = 5 at `a`, which the program comes to in four steps, takes effect
now. -/
def early (w a : Nat) : State :=
  let p : EarlyStore := { within := 4, addr := a, size := 8, value := 5 }
  { put (put (reg (reg vm 1 5) 2 (BitVec.ofNat 64 a)) 0x1000 4 w) 0x1004 4 0x2022E000 with
    pc := 0x400000001001, inputs := [some (.earlyStore p)] }

/-- A non-cacheable store may take effect before a cacheable load that comes first, and before an instruction in its own
bytes, but not before a MEMB or a non-cacheable load (R217, R225, R245). -/
theorem test_early_store :
    ([(0x2022E000, 0x30000, true), (0x8C620000, 0x30000, true), (0x8C620000, 0x1040, true), (0x1BFF0000, 0x30000, false),
      (0x2062B000, 0x30000, false), (0x43FF075F, 0x1000, true)] : List (Nat × Nat × Bool)).all (fun p =>
        gives (step (early p.1 p.2.1)) fun t =>
          if p.2.2 then bytes t p.2.1 8 == 5 && t.ncRecent.length == 1 else t.ncRecent.isEmpty) = true := by decide +kernel

/-- Nor before an instruction that faults, here a misaligned load, where the same load aligned lets it (R580). -/
theorem test_early_store_and_fault :
    ([(0x8C620000, true), (0x8C620001, false)] : List (Nat × Bool)).all (fun p =>
      let s := early p.1 0x30000
      let e : EarlyStore := { within := 4, addr := 0x30000, size := 8, value := 5 }
      (ahead 1 { s with inputs := [], early := [e.over s.codeMem] }).isSome == p.2) = true := by decide +kernel

/-- The fetch of an instruction that such a store has overwritten early still sees the old word; once the program has come
to the store it may see either (R225, R247). -/
theorem test_early_store_and_fetch :
    gives (step (early 0x43FF075F 0x1000)) (fun t =>
      bytes t 0x1000 8 == 5 && wordAt t.codeMem 0x1000 == 0x43FF075F
        && gives (step t) fun u => u.ir == 0x43FF075F && u.pc == 0x400000001005
          && gives (step u) fun w => w.early.isEmpty && wordAt w.codeMem 0x1000 == 5
            && (w.codeHist.any fun o => o.addr == 0x1000 && o.old == 0x2022E00043FF075F)) = true := by decide +kernel

/-- The INCO trap on. -/
def overflowTraps (s : State) : State := { s with dbox := { s.dbox with dcCtl := s.dbox.dcCtl ||| 0x400 } }

/-- A1, A4, A6. -/
theorem test_atomics :
    gives (exec (.ldwSet 2 3 0) (reg vm 3 0x30000)) (fun t => bytes t 0x30000 8 == 1 && t.readReg 2 == 0) = true ∧
      gives (exec (.ldwDec 2 3 0) (reg vm 3 0x30000)) (fun t =>
        bytes t 0x30000 8 == 0xFFFFFFFF && t.readReg 2 == 0) = true ∧
      gives (exec (.ldwInc 2 3 0) (overflowTraps (put (reg vm 3 0x30000) 0x30000 4 0x7FFFFFFF))) (fun t =>
        bytes t 0x30000 8 == 0x80000000 && t.readReg 2 == 0x7FFFFFFF && t.pc == 0x900B80 && t.ibox.excSum == 0x4200)
        = true := by decide +kernel

/-- The store of an atomic in non-cacheable memory has taken effect: one of another agent comes after it (R490, R492). -/
theorem test_atomic_not_pending :
    gives (exec (.ldwSet 2 3 0) (reg vm 3 0x400000030000)) (fun t =>
      t.ncRecent.isEmpty && bytes t 0x30000 8 == 1 && bytes (t.agentStore 0x30000 9) 0x30000 8 == 9) = true := by
  decide +kernel

/-- A /p form does not look at the high bits of its address, or faults, by the reading of R391 or of R236; a replayed load
sets DS_STAT[SCD_SERR] or leaves it, by that of R149 or of R607. -/
theorem test_two_readings :
    let s : Bool → State := fun b =>
      let s := reg (put hm 0x30000 8 5) 2 0x0030000000030000
      { s with plat := { s.plat with physSignCheck := b, scdSerrRecorded := b } }
    gives (exec (.priLdlP 1 2 0) (s false)) (fun t => t.readReg 1 == 5) = true ∧
      gives (exec (.priLdlP 1 2 0) (s true)) (fun t =>
        t.pc == 0x900C80 && t.dbox.dsStat &&& 0x800 == 0x800) = true ∧
      ((s false).apply (.hwError .loadReplay)).dbox.dsStat = 0 ∧
      ((s true).apply (.hwError .loadReplay)).dbox.dsStat = 0x20000 := by decide +kernel

/-- A lock load sets the lock; a lock store that finds lock_flag 0 fails, stores nothing and says so (R501, R503). -/
theorem test_locks :
    gives (exec (.lldl 2 3 0) (reg vm 3 0x30000)) (fun t =>
        t.lock.valid && t.lock.addr == 0x30000 && t.lock.size == 8) = true ∧
      gives (exec (.lstl 2 3 0) { reg (reg vm 2 9) 3 0x30000 with pair := 0x197F1000 }) (fun t =>
        t.mem == [] && !t.lock.success && t.pc == 0x1005) = true ∧
      gives (exec (.wrF 2) (reg vm 2 3)) (fun t => t.lock.flag) = true := by decide +kernel

/-- C1, C2, C15, C16, C18. -/
theorem test_transfers :
    gives (exec (.br 31 3) { vm with pc := 0x20011 }) (fun t => t.pc == 0x20021) = true ∧
      gives (exec (.bsr 26 0x1FFFFF) { vm with pc := 0x20011 }) (fun t => t.pc == 0x20011 && t.readReg 26 == 0x20014)
        = true ∧
      gives (exec (.call 26 27 0) { reg vm 27 0x40003 with pc := 0x20011 }) (fun t =>
        t.pc == 0x40001 && t.readReg 26 == 0x20014) = true ∧
      gives (exec (.call 26 26 0) { reg vm 26 0x40000 with pc := 0x20011 }) (fun t =>
        t.pc == 0x40001 && t.readReg 26 == 0x20014) = true ∧
      gives (exec (.jmp 31 27 0) { reg vm 27 0x0020000000000000 with pc := 0x20011 }) (fun t =>
        t.pc == 0x900D00 && t.ebox.iva == 0x0020000000000000 && t.ibox.excSum.getLsbD 13) = true := by decide +kernel

/-- C3 to C14: taken to pc + 8, not taken to pc + 4. -/
theorem test_conditional_branches :
    ∀ p ∈ ([(Instr.beq 1 1, 0, true), (.beq 1 1, 0x8000000000000000, false), (.bne 1 1, 1, true),
      (.blt 1 1, 0x8000000000000000, true), (.ble 1 1, 0, true), (.bgt 1 1, 0, false),
      (.bge 1 1, 0xFFFFFFFFFFFFFFFF, false), (.blbc 1 1, 2, true), (.blbs 1 1, 3, true),
      (.fbeq 1 1, 0x8000000000000000, true), (.fbne 1 1, 0x8000000000000000, false),
      (.fblt 1 1, 0xBFF0000000000000, true), (.fble 1 1, 0x8000000000000000, true), (.fbgt 1 1, 0, false),
      (.fbge 1 1, 0xBFF0000000000000, false)] : List (Instr × Word × Bool)),
      gives (exec p.1 (freg (reg vm 1 p.2.1) 1 p.2.1)) (fun t => t.pc == if p.2.2 then 0x1009 else 0x1005) = true := by
  decide +kernel

/-- Integer vectors: wraps, borrows, sign extension, comparisons (R538 to R559). -/
theorem test_integer :
    ∀ p ∈ ([(Instr.addw 1 2 3, 0x7FFFFFFF, 1, 0xFFFFFFFF80000000), (.addw 1 2 3, 0x100000005, 3, 8),
      (.subw 1 2 3, 0x80000000, 1, 0x7FFFFFFF), (.addl 1 2 3, 0x7FFFFFFFFFFFFFFF, 1, 0x8000000000000000),
      (.subl 1 2 3, 0, 1, 0xFFFFFFFFFFFFFFFF), (.mulw 1 2 3, 0x10000, 0x10000, 0),
      (.mull 1 2 3, 0xFFFFFFFFFFFFFFFF, 3, 0xFFFFFFFFFFFFFFFD),
      (.umulh 1 2 3, 0xFFFFFFFFFFFFFFFF, 0xFFFFFFFFFFFFFFFF, 0xFFFFFFFFFFFFFFFE),
      (.cmplt 1 2 3, 0xFFFFFFFFFFFFFFFF, 0, 1), (.cmpult 1 2 3, 0xFFFFFFFFFFFFFFFF, 0, 0), (.cmple 1 2 3, 4, 4, 1),
      (.bic 1 2 3, 0xFF, 0x0F, 0xF0), (.ornot 1 2 3, 0, 0xFF, 0xFFFFFFFFFFFFFF00), (.eqv 1 2 3, 5, 5, 0xFFFFFFFFFFFFFFFF),
      (.cmpuleL 1 255 3, 255, 0, 1), (.sublL 1 255 3, 0, 0, 0xFFFFFFFFFFFFFF01), (.ldih 3 31 0x8000, 0, 0, 0xFFFFFFFF80000000)]
        : List (Instr × Word × Word × Word)),
      gives (exec p.1 (reg (reg vm 1 p.2.1) 2 p.2.2.1)) (fun t => t.readReg 3 == p.2.2.2 && t.pc == 0x1005) = true := by
  decide +kernel

/-- Two doubles to add under an FPCR. -/
def sum (fpcr a b : Word) : State := freg (freg { vm with fpcr := fpcr } 1 a) 2 b

/-- F1, F6, F8: 1 + 2; 1 + 2^-54 to nearest with the inexact trap off; a denormal with DNZ. The free value is 0. -/
theorem test_fp_add :
    fpAdd 0 0x3FF0000000000000 0x4000000000000000 0 = { value := 0x4008000000000000, flags := {}, traps := {} } ∧
      fpAdd 0x0800000000000001 0x3FF0000000000000 0x3CA0000000000000 0
        = { value := 0x3FF0000000000000, flags := { ine := true }, traps := {} } ∧
      (fpAdd 0x0001000000000000 0x1 0x3FF0000000000000 0).value = 0x3FF0000000000000 := by decide +kernel

/-- With EXC_CTL = 2 a denormal operand traps and leaves FPCR, as zero with DNZ = 1, as itself with DNZ = 0 (R191, R562, R623);
an infinite operand raises INV (R194), which INVD masks. -/
theorem test_denormal_and_infinite_operands :
    fpAdd 2 0x8000000000000001 0x0010000000000002 0 =
        { value := 0x0010000000000001, flags := {}, traps := { inv := true } } ∧
      fpAdd 0x0001000000000002 0x1 0x3FF0000000000000 0 =
        { value := 0x3FF0000000000000, flags := {}, traps := { inv := true } } ∧
      fpAdd 0x0002000000000000 0x7FF0000000000000 0x3FF0000000000000 0 =
        { value := 0x7FF0000000000000, flags := { inv := true }, traps := {} } := by decide +kernel

/-- F1, F2: 1 + 2 completes; infinity minus infinity traps. -/
theorem test_faddd :
    gives (exec (.faddd 1 2 3) (sum 0 0x3FF0000000000000 0x4000000000000000)) (fun t => t.fpcr == 0 && t.pc == 0x1005)
        = true ∧
      gives (exec (.faddd 1 2 3) (sum 0 0x7FF0000000000000 0xFFF0000000000000)) (fun t =>
        t.fpcr == 0x0010000000000000 && t.ibox.excSum == 0x303 && t.pc == 0x900B80) = true := by decide +kernel

/-- F9: the third element's sum is invalid; the others are written. -/
theorem test_vaddd :
    gives (exec (.vaddd 1 2 3)
        (vreg (vreg vm 1 (vec4 0x3FF0000000000000 0x3FF0000000000000 0x7FF0000000000000 0x3FF0000000000000))
          2 (vec4 0x4000000000000000 0x4000000000000000 0xFFF0000000000000 0x4000000000000000)))
      (fun t => t.fpcr == 0x100000 && t.ibox.excSum == 0x200301 && t.pc == 0x900B80)
      = true ∧
    vm.written false 3 (fpAdd 0 0x3FF0000000000000 0x4000000000000000 0) = 0x4008000000000000 := by decide +kernel

/-- Y9: the reserved bits of FPCR read 0, SUM is the OR of the flags. -/
theorem test_fpcr_moves :
    gives (exec (.wfpcr 1) (freg vm 1 0xFFFFFFFFFFFFFFFF)) (fun t => fpcrRead t.fpcr == 0xFFFF01F001F001F0) = true := by
  decide +kernel

/-- T7, T8, T11: granularity, page-table addresses, super-page fetches. -/
theorem test_translation_vectors :
    joinPage 0x400 1 0x120063458 = 0x823458 ∧ pageMatch 1 (vpage 0x120040000) (vpage 0x120063458) = true ∧
      pteAddr 0x0010000000000000 0x120002010 = 0xFFF0000000480008 ∧
      pteAddr 0x0010000000000000 0xFFFFFFFF80002010 = 0xFFF1FFFFFFE00008 ∧
      fetchPa 0xFFFF800000901000 = 0x901000 := by decide +kernel

/-! ## Witnesses: states and operands that meet the hypotheses of the statements -/

/-- Where an access that faults in no translation goes. -/
def reach (s : State) (q : MemReq) : Option PAddr :=
  if q.bypasses then some (q.va.setWidth 48)
  else match s.dtbLookup q.pm q.reads q.writes q.va with
    | .pa p => some p
    | _ => none

/-- `State.ready` as a check. -/
def readyAt (s : State) (q : MemReq) (pa : PAddr) : Bool :=
  !s.dbox.daMatch.getLsbD 53 && !s.dbox.daMatch.getLsbD 54 && !s.dvEn && s.armed == none && s.dcErrors == []
    && !q.classIllegal pa && !s.unanswered q pa && (!badSext q.va || !s.signChecked q) && q.va.toNat % q.align == 0
    && (reach s q).any fun p => pa == alignDown p q.block

theorem ready_of_readyAt {s : State} {q : MemReq} {pa : PAddr} (h : readyAt s q pa = true) : s.ready q pa := by
  simp only [readyAt, Bool.and_eq_true, Bool.not_eq_true', beq_iff_eq, Bool.or_eq_true, Option.any_eq_true] at h
  obtain ⟨⟨⟨⟨⟨⟨⟨⟨⟨h1, h2⟩, h3⟩, h4⟩, hl⟩, h5⟩, h6⟩, h7⟩, h8⟩, p, hp, h9⟩ := h
  refine ⟨⟨h1, h2, h3⟩, h4, hl, h5, h6, p, ⟨h7.symm, h8, ?_⟩, h9⟩
  unfold reach at hp
  split
  · rename_i hb
    rw [if_pos hb] at hp
    exact (Option.some.inj hp).symm
  · rename_i hb
    rw [if_neg hb] at hp
    split at hp
    · rename_i hd
      rw [hd, Option.some.inj hp]
    · cases hp

/-- The data access of each instruction of a list passes decode and is ready at `pa`. -/
def allReady (s : State) (pa : PAddr) (l : List Instr) : Bool :=
  l.all fun i => match s.dataReq i with
    | some (p, q) => !s.iaMatch && !s.fen p && readyAt s q pa
    | none => false

theorem ready_of_allReady {s : State} {pa : PAddr} {l : List Instr} (h : allReady s pa l = true) :
    ∀ i ∈ l, ∃ p q, s.dataReq i = some (p, q) ∧ s.passes p ∧ s.ready q pa := by
  intro i hi
  have h1 := List.all_eq_true.mp h i hi
  split at h1
  · rename_i p q hq
    simp only [Bool.and_eq_true, Bool.not_eq_true'] at h1
    exact ⟨p, q, hq, h1.1, ready_of_readyAt h1.2⟩
  · cases h1

def loadForms : List Instr :=
  [.ldbu 1 2 0, .ldhu 1 2 0, .ldw 1 2 0, .ldl 1 2 0, .ldlU 1 2 0, .ldwNc 1 2 0, .ldlNc 1 2 0, .flds 1 2 0, .fldd 1 2 0,
    .lddNc 1 2 0]

def storeForms : List Instr :=
  [.stb 1 2 0, .sth 1 2 0, .stw 1 2 0, .stl 1 2 0, .stlU 1 2 0, .stwNc 1 2 0, .stlNc 1 2 0, .fsts 1 2 0, .fstd 1 2 0,
    .stdNc 1 2 0]

def vectorLoadForms : List Instr :=
  [.ldwe 1 2 0, .ldse 1 2 0, .ldde 1 2 0, .vlds 1 2 0, .vldd 1 2 0, .vldwU 1 2 0, .vldsU 1 2 0, .vlddU 1 2 0,
    .vlddNc 1 2 0]

def vectorStoreForms : List Instr :=
  [.vsts 1 2 0, .vstd 1 2 0, .vstwU 1 2 0, .vstsU 1 2 0, .vstdU 1 2 0, .vstwUl 1 2 0, .vstsUl 1 2 0, .vstdUl 1 2 0,
    .vstwUh 1 2 0, .vstsUh 1 2 0, .vstdUh 1 2 0, .vstdNc 1 2 0]

def atomicForms : List Instr :=
  [.ldwInc 1 2 0, .ldlInc 1 2 0, .ldwDec 1 2 0, .ldlDec 1 2 0, .ldwSet 1 2 0, .ldlSet 1 2 0]

def privilegedForms : List Instr :=
  [.priLdwP 1 2 0, .priLdlP 1 2 0, .priLdwIncP 1 2 0, .priLdlIncP 1 2 0, .priLdwDecP 1 2 0, .priLdlDecP 1 2 0,
    .priLdwSetP 1 2 0, .priLdlSetP 1 2 0, .priLdwV 1 2 0, .priLdlV 1 2 0, .priLdwVpte 1 2 0, .priLdlVpte 1 2 0,
    .priStwP 1 2 0, .priStlP 1 2 0, .priStwV 1 2 0, .priStlV 1 2 0]

/-- HM with DTB_PCR[PM] naming VM, whose super-page addresses need no translation. -/
def hmAsVm : State := { hm with dbox := { DBox.reset with dtbPcr := 1 } }

/-- The last 32 bytes of memory. -/
def top : Word := 0x3FFFFFFFFFE0

/-- ScalarLoads, ScalarStores, VectorLoads, VectorStores, at both ends of memory. -/
theorem witness_memory_forms :
    (∀ i ∈ loadForms ++ storeForms ++ vectorLoadForms ++ vectorStoreForms,
      ∃ p q, vm.dataReq i = some (p, q) ∧ vm.passes p ∧ vm.ready q 0) ∧
    (∀ i ∈ loadForms ++ storeForms ++ vectorLoadForms ++ vectorStoreForms,
      ∃ p q, (reg vm 2 top).dataReq i = some (p, q) ∧ (reg vm 2 top).passes p ∧ (reg vm 2 top).ready q 0x3FFFFFFFFFE0) :=
  ⟨ready_of_allReady (by decide +kernel), ready_of_allReady (by decide +kernel)⟩

/-- Atomics (its first clause), LockLoads; the old data are 0, so nothing overflows. -/
theorem witness_atomics :
    (∀ i ∈ atomicForms ++ [.lldw 1 2 0, .lldl 1 2 0], ∃ p q, vm.dataReq i = some (p, q) ∧ vm.passes p ∧ vm.ready q 0) ∧
      (vm.loadPhys 0 8 false).1 = 0 ∧ vm.ebox.icr.getLsbD 0 = false :=
  ⟨ready_of_allReady (by decide +kernel), by decide +kernel⟩

/-- PrivilegedAccesses, and Atomics (its second clause). -/
theorem witness_privileged_forms : hmAsVm.mode = .hm ∧
    (∀ i ∈ privilegedForms, ∃ p q, hmAsVm.dataReq i = some (p, q) ∧ hmAsVm.passes p ∧ hmAsVm.ready q 0) ∧
    (∀ i ∈ privilegedForms, ∃ p q, (reg hmAsVm 2 top).dataReq i = some (p, q) ∧ (reg hmAsVm 2 top).passes p ∧
      (reg hmAsVm 2 top).ready q 0x3FFFFFFFFFE0) :=
  ⟨by decide +kernel, ready_of_allReady (by decide +kernel), ready_of_allReady (by decide +kernel)⟩

/-- AtomicOverflowTrap: each form at its overflowing datum. -/
theorem witness_atomicOverflow :
    ∀ p ∈ ([(.ldwInc 1 2 0, 0x7FFFFFFF), (.ldlInc 1 2 0, 0x7FFFFFFFFFFFFFFF), (.ldwDec 1 2 0, 0x80000000),
      (.ldlDec 1 2 0, 0x8000000000000000)] : List (Instr × Nat)),
      (let s := overflowTraps (put vm 0 8 p.2)
       allReady s 0 [p.1] && !s.ebox.icr.getLsbD 0 && s.dbox.dcCtl.getLsbD 10
         && (s.loadPhys 0 8 false).1.toNat == p.2) = true := by decide +kernel

/-- LockStores: a lock store in slot 0 with RD_F R11 in slot 1. -/
theorem witness_lockStores :
    ({ vm with pair := 0x197F1000 } : State).lockStoreIllegal = none ∧
      ∀ i ∈ ([.lstw 1 2 0, .lstl 1 2 0] : List Instr),
        ∃ p q, ({ vm with pair := 0x197F1000 } : State).dataReq i = some (p, q) ∧
          ({ vm with pair := 0x197F1000 } : State).passes p ∧ ({ vm with pair := 0x197F1000 } : State).ready q 0 :=
  ⟨by decide +kernel, ready_of_allReady (by decide +kernel)⟩

/-- LockFlagMoves and LockPosition: RD_F after a lock store, and both in a wrong place. -/
theorem witness_lockPosition :
    ({ vm with pc := 0x1005, pair := 0x21708000 } : State).pc.getLsbD 2 = true ∧
      ({ vm with pc := 0x1005, pair := 0x21708000 } : State).pairIsLockStore = true ∧
      ({ vm with pc := 0x1005, pair := 0x21708000 } : State).iaMatch = false ∧
      ({ vm with pc := 0x1005 } : State).pc.getLsbD 2 ≠ false ∧ vm.pc.getLsbD 2 ≠ true := by decide +kernel

theorem witness_lockPosition_pair : ¬(vm.pc.getLsbD 2 = false ∧ ∃ r, decode vm.plat.supplement vm.pair = some (.rdF r) ∧ r ≠ 31) := by
  rintro ⟨-, r, h, -⟩
  have h0 : decode vm.plat.supplement vm.pair = some (.sysCallB 0) := by decide +kernel
  rw [h0] at h
  cases h

/-- EncodeThenDecode and DecodeGivesTableRows. -/
theorem witness_encoding :
    (Instr.ldl 31 0 0xFFFF).wellFormed = true ∧ encode (.ldl 31 0 0xFFFF) = some 0x8FE0FFFF ∧
      decodeTable 0x8FE0FFFF = some (.ldl 31 0 0xFFFF) ∧ decode platformWords 0x94220008 = some (.priLdlP 1 2 8) := by
  decide +kernel

/-- The first instruction after reset, and the word 0x94000000, which no row has. -/
def placed (w : Nat) : State := hm.withFetchWord 32 w

/-- The same core with the line of that word in its instruction cache. -/
def placedLine (w : Nat) : State :=
  let s := placed w
  { s with icache := [s.newLine none 0x1000] }

/-- StepRunsDecoded: a word of a row and a word of none, from memory and from a line. -/
theorem witness_stepRunsDecoded : ([0x40220003, 0x94000000] : List Nat).all (fun w =>
    ([placed w, placedLine w].all fun s =>
      s.inputs == [] && s.coreState == .running && s.lateErrors == [] && s.recognised == none && !s.badFetch
        && s.codeHist == [] && s.armedFetch == none && (s.icache.all fun l => !l.badTag && !l.badData))
    && (placed w).icache.find? (fun l => l.hits (placed w)) == none && (placed w).memExists 0x1000 4
    && (placed w).fetchBypasses && ((clearLow2 (placed w).pc).setWidth 48 &&& 0x7FFFFFFFFFFF : PAddr) == 0x1000
    && (decode (placed w).plat.supplement (wordAt (placed w).mem 0x1000)).isSome == (w == 0x40220003)
    && (match (placedLine w).icache.find? (fun l => l.hits (placedLine w)) with
      | some l => ({ placedLine w with lastExc := none, retJump := none } : State).sameWithout l
          && (decode (placedLine w).plat.supplement (l.words[0])).isSome == (w == 0x40220003)
      | none => false)) = true := by decide +kernel

/-- StepRunsDecoded in UM: the page of virtual address 0 mapped by an ITB entry. -/
theorem witness_stepRunsDecoded_um :
    let s : State := { um with itb := [ItbEntry.mk 0 0 0 true true true 0 0 false] }
    s.fetchBypasses = false ∧ (match s.itbLookup with | .hit _ p => p == 0x1000 | _ => false) = true ∧ s.badFetch = false := by
  decide +kernel

/-- HM with the system registers named. -/
def hmSre : State := { hm with ibox := { hm.ibox with isCtl := 0x101F9 } }

/-- RegisterFiles, SystemRegisterBank: the last register, a named and a plain one, both modes. -/
theorem witness_registers :
    (30 : Reg) ≠ 31 ∧ (hmSre.mode = .hm ∧ hmSre.ibox.isCtl.getLsbD 0 = true) ∧
      ¬(hm.mode = .hm ∧ hm.ibox.isCtl.getLsbD 0 = true) ∧ ¬(vm.mode = .hm ∧ vm.ibox.isCtl.getLsbD 0 = true) ∧
      (30 : Reg) ∉ ([1, 2, 4, 5, 6, 7, 20, 21, 22, 23, 31] : List Reg) := by decide +kernel

/-- RegisterFiles: data of each kind with a use they suit and one they do not. -/
theorem witness_kinds :
    ([(.unwritten, .single), (.image, .double), (.single, .single), (.double, .image), (.integer, .image)]
        : List (DataKind × DataKind)).all (fun p => { vm with kinds := Vector.replicate 32 p.1 }.suits 30 p.2) = true ∧
      ([(.image, .single), (.single, .image), (.double, .integer), (.integer, .double), (.mixed, .image)]
        : List (DataKind × DataKind)).all (fun p => !{ vm with kinds := Vector.replicate 32 p.1 }.suits 30 p.2) = true := by
  decide +kernel

/-- OperateResults, NullInstructions (in every mode), BarriersAndIdentity: no address match; destination R30. -/
theorem witness_operate : vm.iaMatch = false ∧ (30 : Reg) ≠ 31 ∧ hm.iaMatch = false ∧ hm.mode = .hm := by decide +kernel

/-- A platform whose six operations trap. -/
def trapping (s : State) : State :=
  { s with plat := { s.plat with intOverflow := [.addw, .subw, .mulw, .addl, .subl, .mull] } }

/-- ArithmeticResults: no trap by the platform, by ICR[FD], or because the largest result just fits. -/
theorem witness_noIntTrap :
    vm.noIntTrap .addw 0x7FFFFFFF 1 ∧
      ({ trapping vm with ebox := { EBox.reset with icr := 1 } } : State).noIntTrap .addw 0x7FFFFFFF 1 ∧
      (trapping vm).noIntTrap .addw 0x7FFFFFFE 1 ∧ (trapping vm).noIntTrap .mull 0x8000000000000000 1 :=
  ⟨.inr (.inl (by decide)), .inl (by decide), .inr (.inr (by unfold IntOp.fits; decide)),
    .inr (.inr (by unfold IntOp.fits; decide))⟩

/-- IntegerOverflowTrap: each operation one past its range. -/
theorem witness_integerOverflow : (trapping vm).ebox.icr.getLsbD 0 = false ∧
    ∀ p ∈ ([(.addw, 0x7FFFFFFF, 1), (.subw, 0x80000000, 1), (.mulw, 0x80000000, 0xFFFFFFFF),
      (.addl, 0x7FFFFFFFFFFFFFFF, 1), (.subl, 0x8000000000000000, 1), (.mull, 0x8000000000000000, 0xFFFFFFFFFFFFFFFF)]
        : List (IntOp × Word × Word)) ++
      [(.addw, 0x7FFFFF01, (0xFF : BitVec 8).setWidth 64), (.subw, 0x80000000, (1 : BitVec 8).setWidth 64),
        (.mulw, 0x40000000, (2 : BitVec 8).setWidth 64), (.addl, 0x7FFFFFFFFFFFFF01, (0xFF : BitVec 8).setWidth 64),
        (.subl, 0x8000000000000000, (1 : BitVec 8).setWidth 64), (.mull, 0x4000000000000000, (2 : BitVec 8).setWidth 64)],
      p.1 ∈ (trapping vm).plat.intOverflow ∧ ¬p.1.fits p.2.1 p.2.2 := by
  unfold IntOp.fits
  decide +kernel

/-- Target match on 0x2001C in VM. -/
def targetMatch : State :=
  { reg vm 27 0x2001C with pc := 0x20011, ebox := { EBox.reset with idaMatch := 0x002000000002001D } }

/-- JumpsAndLinks: the last good target below the gap. TransferFaults: the first bad one, and a matching one, which BR
reaches with displacement 2. -/
theorem witness_transfers :
    (badSext ((reg vm 27 0x000FFFFFFFFFFFFF).readReg 27) = false ∧ (reg vm 27 0x000FFFFFFFFFFFFF).idaMatch 0x000FFFFFFFFFFFFF = false) ∧
      badSext ((reg vm 27 0x0010000000000000).readReg 27) = true ∧
      (badSext (targetMatch.readReg 27) = false ∧ targetMatch.idaMatch (targetMatch.readReg 27) = true) ∧
      targetMatch.idaMatch ((targetMatch.pc &&& ~~~(3 : Word)) + 4 + ((2 : BitVec 21).signExtend 64 <<< 2)) = true ∧
      vm.idaMatch ((vm.pc &&& ~~~(3 : Word)) + 4 + ((2 : BitVec 21).signExtend 64 <<< 2)) = false ∧
      targetMatch.idaOpen (targetMatch.readReg 27) = false ∧ targetMatch.iaMatch = false := by decide +kernel

/-- ConditionalBranches: every condition holds and fails for some register value, at the edges of its range. -/
theorem witness_branches :
    (vm.readReg 1 = 0 ∧ (reg vm 1 1).readReg 1 ≠ 0) ∧
      ((reg vm 1 0x8000000000000000).readReg 1).toInt < 0 ∧ ¬(vm.readReg 1).toInt < 0 ∧
      (vm.readReg 1).toInt ≤ 0 ∧ ¬((reg vm 1 1).readReg 1).toInt ≤ 0 ∧
      0 < ((reg vm 1 0x7FFFFFFFFFFFFFFF).readReg 1).toInt ∧ 0 ≤ (vm.readReg 1).toInt ∧
      ¬0 ≤ ((reg vm 1 0xFFFFFFFFFFFFFFFF).readReg 1).toInt ∧
      ((reg vm 1 2).readReg 1).toNat % 2 = 0 ∧ ((reg vm 1 3).readReg 1).toNat % 2 = 1 := by decide +kernel

/-- FloatBranches: the two zeros, the smallest numbers of either sign. -/
theorem witness_floatBranches :
    vm.fen .fp = false ∧ vm.iaMatch = false ∧
      ((freg vm 1 0x8000000000000000).useF 1 .double).1.extractLsb' 0 63 = (0 : BitVec 63) ∧
      ((freg vm 1 0x8000000000000001).useF 1 .double).1.extractLsb' 0 63 ≠ (0 : BitVec 63) ∧
      ((freg vm 1 0x8000000000000001).useF 1 .double).1.getLsbD 63 = true ∧ ((freg vm 1 1).useF 1 .double).1.getLsbD 63 ≠ true := by
  decide +kernel

/-- SysCallEntryAddress and SysCallEffect: the ends of each range of codes, allowed and not. -/
theorem witness_sysCall :
    ([0, 0x3F, 0x40, 0x7F, 0x80, 0xBF].all fun fn : BitVec 25 => fn.extractLsb' 6 2 != (3 : BitVec 2)) = true ∧
      um.mode = .um ∧ km.mode = .km ∧ vm.mode = .vm ∧ hm.mode = .hm ∧
      (um.iaMatch || km.iaMatch || vm.iaMatch || hm.iaMatch) = false ∧
      (0x80 ≤ (0xBF : BitVec 25).toNat % 256 ∧ (0xBF : BitVec 25).toNat % 256 ≤ 0xBF) ∧
      (0x3F : BitVec 25).toNat % 256 ≤ 0x3F ∧
      (0x40 ≤ (0x7F : BitVec 25).toNat % 256 ∧ (0x7F : BitVec 25).toNat % 256 ≤ 0x7F) ∧
      ¬(0x80 ≤ (0x7F : BitVec 25).toNat % 256 ∧ (0x7F : BitVec 25).toNat % 256 ≤ 0xBF) ∧
      (vm.plat.sysCallBRecordsPc = false ∧
        ({ vm with plat := { platform with sysCallBRecordsPc := true } } : State).plat.sysCallBRecordsPc = true) ∧
      ¬(0x80 ≤ (0xC0 : BitVec 25).toNat % 256 ∧ (0xC0 : BitVec 25).toNat % 256 ≤ 0xBF) ∧
      256 ≤ (0x100 : BitVec 25).toNat := by decide +kernel

/-- PrivilegedOutsideHm, PriRetReturns, CsrReads, CsrWritesComplete, UndefinedCsr, HaltEffect. -/
theorem witness_privileged :
    (um.mode ≠ .hm ∧ km.mode ≠ .hm ∧ vm.mode ≠ .hm) ∧ (hm.mode = .hm ∧ hm.iaMatch = false) ∧
      hm.csrValue (csrOf 0x10) = some 0x900000 ∧ hm.csrValue (csrOf 0x00) = none ∧ csrOf 0x0B = .undefined ∧
      (reg hm 1 3).readReg 1 = 3 ∧ (3 : Nat) ∉ [1, 2, 4, 8, 15] ∧ (8 : Nat) ∈ [1, 2, 4, 8, 15] ∧
      hm.plat.haltInHmNop = false ∧
      ({ hm with plat := { Platform.default with haltInHmNop := true } } : State).plat.haltInHmNop = true ∧
      ({ vm with coreState := .halted } : State).recognised = none := by decide +kernel

/-- CsrWriteThenRead: every one of its registers takes a write of all ones. -/
theorem witness_csrWrite :
    ([0x08, 0x09, 0x10, 0x19, 0x1A, 0x1B, 0x1F, 0x24, 0x25, 0x27, 0x29, 0x3C, 0x2A, 0x2B, 0x47, 0x4C, 0x4D, 0x50, 0x52, 0x53,
      0x84, 0xC1, 0xC2, 0xC3, 0xC5, 0xC6, 0xC7, 0xE0, 0xFF, 0xD0, 0xDF, 0x20, 0x21, 0x22, 0x23, 0x0D, 0x0E, 0x0A, 0x1C,
      0x1D, 0x28, 0x30, 0x31, 0x32, 0x33, 0x4E, 0x4F, 0x07, 0x83, 0xC0, 0x34, 0x37, 0x38, 0x3B, 0x14, 0x4B, 0x81, 0x49, 0x4A, 0x80, 0x11, 0x17, 0xC4, 0x48, 0x26,
      0x82, 0x0F, 0x54, 0xC8, 0x13, 0x15]
      : List (BitVec 8)).all (fun i => gives (hm.csrWrite (csrOf i) 0xFFFFFFFFFFFFFFFF) fun _ => true) = true := by
  decide +kernel

/-- DecodeFaults at the fetch: an address that is not sign-extended, in UM, in HM and as the target of a PRI_RET, a miss below and
above the middle of the address space, an entry that lets no mode execute. -/
theorem witness_fetchFaults :
    ([{ um with pc := 0x0010000000000003 }, { hm with pc := 0x0010000000000000 },
      { hm with pc := 0x0010000000000000, retJump := some (0x1000, 8) }]
      : List State).all (fun s => s.inputs == [] && s.coreState == .running && s.lateErrors == [] && s.recognised == none
        && badSext s.pc && (s.retJump == none || s.retJump == some (0x1000, 8))) = true ∧
      ([um, { um with pc := 0xFFF0000000000003 }] : List State).all
        (fun s => s.mode == .um && !badSext s.pc && s.icache == [] && s.itb == []) = true ∧
      (let e := ItbEntry.mk 0 0 0 false false false 0 0 false
       e.tag.toNat / 2 ^ (5 * e.gh.toNat) = (um.pc.extractLsb' 13 40 : BitVec 40).toNat / 2 ^ (5 * e.gh.toNat) ∧
         e.vpn = um.ibox.vpcr.extractLsb' 44 2 ∧ e.upn = um.ibox.upcr.extractLsb' 39 8) := by decide +kernel

/-- SetExcCtl, FloatMoves, SimdMoves, DecodeFaults: units on, each of the enables off, a match. -/
theorem witness_units :
    (vm.iaMatch = false ∧ vm.fen .fp = false ∧ vm.fen .simd = false) ∧
      (([5, 6, 3] : List Word).all fun u =>
        !({ vm with ibox := { vm.ibox with upcr := u } } : State).iaMatch
          && (!u.getLsbD 1 || !u.getLsbD 0 || !u.getLsbD 2)) = true ∧
      ({ vm with ibox := { vm.ibox with iaMatch := 0x8000000000001001 } } : State).iaMatch = true ∧
      vm.illegal .nop = none ∧ vm.illegal (.faddd 1 2 3) = none ∧ Instr.unit (.faddd 1 2 3) = .fp ∧
      Instr.unit (.vldd 1 2 0) = .simd := by decide +kernel

/-- FloatAdditions: 1 + 2 traps in no element, whatever the free value. -/
theorem witness_floatAdditions :
    (fpAdd 0 0x3FF0000000000000 0x4000000000000000 (elem vm.free 0)).traps.none = true ∧
      ((List.range 4).all fun k => (fpAdd 0 (elem 0 k) (elem 0 k) (elem vm.free k)).traps.none) = true := by
  decide +kernel

/-- ExactSums: 1 + 2 = 3, and the largest number plus zero. RoundingBounds: the smallest normal magnitude, an inexact
one of each sign, the largest finite one, a tie. Overflow: in every mode, at half a unit over the largest number, below it. -/
theorem witness_rounding :
    (exactValue 0x4008000000000000 = exactValue 0x3FF0000000000000 + exactValue 0x4000000000000000 ∧
      exactValue 0x7FEFFFFFFFFFFFFF = exactValue 0x7FEFFFFFFFFFFFFF + exactValue 0) ∧
      (2 ^ 52 ≤ (2 ^ 52 : Int).natAbs ∧ (roundExact 2 (2 ^ 52)).2.ovf = false) ∧
      (roundExact 1 (-(2 ^ 53 + 1))).2.ovf = false ∧ (roundExact 3 (2 ^ 53 + 1)).2.ine = true ∧
      (roundExact 0 ((2 ^ 53 - 1) * 2 ^ 2045)).2.ovf = false ∧
      (2 ^ (52 + 1) ≤ (2 ^ 53 + 1 : Int).natAbs ∧ (2 ^ 53 + 1 : Int).natAbs < 2 ^ (53 + 1) ∧
        (roundExact 2 (2 ^ 53 + 1)).2.ovf = false ∧
        2 * (exactValue (roundExact 2 (2 ^ 53 + 1)).1 - (2 ^ 53 + 1)).natAbs = 2 ^ 1) ∧
      ([0, 1, 2, 3].all fun m : Word =>
        (fpAdd (m <<< 58) 0x7FEFFFFFFFFFFFFF 0x7FEFFFFFFFFFFFFF 0).flags.ovf
          && (fpAdd (m <<< 58) 0x7FEFFFFFFFFFFFFF 0x7C90000000000000 0).flags.ovf == decide (2 ≤ m)
          && (fpAdd (m <<< 58) 0x7FEFFFFFFFFFFFFF 0x7C80000000000000 0).flags.ovf == decide (m = 3)) = true := by
  decide +kernel

/-- ExactSums: a sum that rounds, one below the normal range, a zero sum of either sign, the smallest denormal with each
setting of EXC_CTL[1] and DNZ, the NaNs, and the infinities. -/
theorem witness_specialSums :
    exactValue 0x3FF0000000000000 + exactValue 0x3CA0000000000000 ≠ 0 ∧
      (exactValue 0x0010000000000001 + exactValue 0x8010000000000000 ≠ 0 ∧
        (exactValue 0x0010000000000001 + exactValue 0x8010000000000000).natAbs < 2 ^ 52) ∧
      exactValue 0x3FF0000000000000 + exactValue 0xBFF0000000000000 = 0 ∧
      exactValue 0x8000000000000000 + exactValue 0x8000000000000000 = 0 ∧
      (isDen 1 = true ∧ isDen 0x3FF0000000000000 = false) ∧
      ((2 : Word).getLsbD 1 = true ∧ (0 : Word).getLsbD 48 = false ∧ (0x1000000000000 : Word).getLsbD 1 = false ∧
        (0x1000000000000 : Word).getLsbD 48 = true ∧ (0x1000000000002 : Word).getLsbD 1 = true ∧
        (0x1000000000002 : Word).getLsbD 48 = true) ∧
      (exactValue 1 + exactValue 0x3FF0000000000000 ≠ 0 ∧ exactValue 1 + exactValue 0x8000000000000001 = 0 ∧
        (exactValue 1 + exactValue 1 ≠ 0 ∧ (exactValue 1 + exactValue 1).natAbs < 2 ^ 52)) ∧
      (isNan 0x7FF8000000000000 = true ∧ isNan 0x7FF0000000000001 = true) ∧
      (isInf 0x7FF0000000000000 = true ∧ isInf 0xFFF0000000000000 = true ∧ isNan 0xFFF0000000000000 = false) ∧
      (dExp 0x7FF0000000000000 = 2047 ∧ dExp 0x3FF0000000000000 ≠ 2047) := by decide +kernel

/-- FloatTrap: infinity minus infinity, with and without SWC; of VADDD one element alone. -/
theorem witness_floatTrap :
    (fpAdd 0 0x7FF0000000000000 0xFFF0000000000000 (elem vm.free 0)).traps.none = false ∧
      (fpAdd 2 0x7FF0000000000000 0xFFF0000000000000 (elem vm.free 0)).traps.none = false ∧
      (let v : Vec := (0x7FF0000000000000 : Vec) <<< 192
       let w : Vec := (0xFFF0000000000000 : Vec) <<< 192
       (fpAdd 2 (elem v 0) (elem w 0) 0).traps.none = true ∧ (fpAdd 2 (elem v 3) (elem w 3) 0).traps.none = false) ∧
      (vm.suits 1 .double = true ∧ ({ vm with fpcr := 2 } : State).fpcr.getLsbD 1 = true) := by decide +kernel

/-- MemoryReadWrite: all of memory's last 32 bytes, and nothing; a cacheable address and one that is not. -/
theorem witness_memoryReadWrite :
    (isIo 0x3FFFFFFFFFE0 = false ∧ vm.memExists 0x3FFFFFFFFFE0 32 = true ∧ vm.ncRecent = [] ∧ vm.early = [] ∧
      vm.mergeWait = none ∧ vm.dcErrors = [] ∧ (vm.dbox.dcCtl.extractLsb' 12 3 : BitVec 3) = 0) ∧
      vm.memExists 0 0 = true ∧ (vm.plat.memSize ≤ 2 ^ 46 ∧ Memory.wf vm.mem = true) ∧
      isNc false 0x3FFFFFFFFFE0 = false ∧ isNc true 0x3FFFFFFFFFE0 = true := by decide +kernel

/-- A DTB whose one entry maps the page of virtual address 0 for the modes of `rights`. -/
def mapped (s : State) (rights : Word) : State := s.dtbFill rights

/-- Memory of `n` bytes only. -/
def sized (s : State) (n : Nat) : State := { s with plat := { s.plat with memSize := n } }

/-- An address match on 0 for reads or writes, or a value match on 7 in the lowest byte. -/
def daOn (s : State) (m : Word) : State := { s with dbox := { s.dbox with daMatch := m } }

def dvOn (s : State) : State := dcOn { s with dbox := { s.dbox with dvMask := 0xFF, dvMatch := 7 } } 0x80000

/-- No data match is on. -/
def unmatched (s : State) : Bool := !s.dbox.daMatch.getLsbD 53 && !s.dbox.daMatch.getLsbD 54 && !s.dvEn

/-- CacheControl: the instructions on and off, an address that is not sign-extended, lines cached and not, in memory and
beyond it, with no error in the data cache, an address match, a miss, a denial and two entries, each with its enables. -/
theorem witness_cacheControl :
    ([vm, um, dcOn um 0x10020].all fun s => !s.iaMatch && s.sbox.cpCtl.getLsbD 3 && s.sbox.cpCtl.getLsbD 4 && unmatched s
        && s.dcErrors == []) = true ∧
      ([0, 8, 16] : List Word).all (fun c => !{ vm with sbox := { SBox.reset with cpCtl := c } }.iaMatch) = true ∧
      ((8 : Word).getLsbD 3 = true ∧ (8 : Word).getLsbD 4 = false ∧ (16 : Word).getLsbD 4 = true) ∧
      (loc 0 + 128 ≤ vm.plat.memSize ∧ (sized vm 64).plat.memSize < loc 0 + 128 ∧ unmatched (sized vm 64) = true) ∧
      badSext ((reg um 2 0x0010000000000000).lineReq 2 0).va = true ∧
      ([0, 0x400000000000, 0x800000000000].all fun a =>
        ((reg vm 2 a).lineReq 2 0).bypasses && ((reg vm 2 a).lineReq 2 0).va == a && !badSext a) = true ∧
      ((um.lineReq 2 0).bypasses = false ∧ badSext (um.lineReq 2 0).va = false) ∧
      (mapped um 0x0800).dtbLookup .um true false 0 = .pa 0 ∧
      (loc 0 + 128 ≤ (dcOn vm 0x20).plat.memSize ∧ (dcOn vm 0x20).armed = none ∧
        (sized (dcOn vm 0x20) 64).plat.memSize < loc 0 + 128) ∧
      ((daOn vm 0x0020000000000000).daHit ((daOn vm 0x0020000000000000).lineReq 2 0) 0 = true ∧
        (daOn vm 0x0020000000000000).davEn = false) ∧
      um.dtbLookup .um true false 0 = .miss ∧
      (mapped um 0).dtbLookup .um true false 0 = .denied true false false ∧
      (mapped um 0x0802).dtbLookup .um true false 0 = .denied false true false ∧
      (mapped (mapped um 0x0800) 0x0800).dtbLookup .um true false 0 = .multiple ∧
      (um.dbox.dcCtl.getLsbD 16 = false ∧ um.dbox.dcCtl.getLsbD 5 = false) ∧
      ((dcOn um 0x10020).dbox.dcCtl.getLsbD 16 = true ∧ (dcOn um 0x10020).dbox.dcCtl.getLsbD 5 = true) ∧
      ({ vm with sbox := { SBox.reset with cpCtl := 4 } } : State).sbox.cpCtl.getLsbD 3 = false ∧
      ({ vm with sbox := { SBox.reset with cpCtl := 4 } } : State).sbox.cpCtl.getLsbD 4 = false := by decide +kernel

/-- The access of an instruction, at an address used as it is, past decode with no data match and no armed error. -/
def accesses (s : State) (i : Instr) (f : MemReq → PAddr → Bool) : Bool :=
  match s.dataReq i with
  | some (p, q) => !s.iaMatch && !s.fen p && unmatched s && s.armed == none && (!badSext q.va || !s.signChecked q)
      && q.va.toNat % q.align == 0 && q.bypasses && f q (alignDown (q.va.setWidth 48) q.block)
  | none => false

/-- AddressFaults, its third part: I/O space for each class that may not use it, non-cacheable space for a lock, the byte
past the end of memory, an I/O register that does not exist. -/
theorem witness_illegalAddresses :
    (([.vldd 1 2 0, .vstwU 1 2 0, .ldwInc 1 2 0, .ldlNc 1 2 0, .stdNc 1 2 0, .lldl 1 2 0] : List Instr).all fun i =>
      accesses (reg vm 2 0x800000000000) i fun q pa => pa.getLsbD 47 && q.classIllegal pa) = true ∧
      (accesses (reg vm 2 0x400000000000) (.lldl 1 2 0) fun q pa => pa.getLsbD 46 && q.cls == .lock) = true ∧
      (([.ldbu 1 2 0, .stb 1 2 0, .ldlNc 1 2 0, .vldd 1 2 0] : List Instr).all fun i =>
        accesses (reg (sized vm 64) 2 64) i fun q pa =>
          !pa.getLsbD 47 && decide (64 < loc pa + q.size) && !q.classIllegal pa && !(q.reads && q.writes)) = true ∧
      (accesses (reg vm 2 0x800000000000) (.ldl 1 2 0) fun _ pa => pa.getLsbD 47 && vm.iorAt pa == none) = true ∧
      (accesses (reg (sized vm 64) 2 64) (.ldwInc 1 2 0) fun q pa =>
        q.reads && q.writes && decide (64 < loc pa + q.size)) = true := by decide +kernel

/-- TranslationFaults, its second part: an address match alone, with and without DAV_MATCH_EN, a value match alone, both,
and none. -/
theorem witness_dataMatches :
    ([(vm, false, false), (daOn vm 0x0040000000000000, true, false), (daOn vm 0x00C0000000000000, true, false),
      (dvOn (reg vm 1 7), false, true), (dvOn (reg vm 1 6), false, false),
      (dcOn (dvOn (reg vm 1 7)) 0x100000, false, true), (dcOn (daOn vm 0x0040000000000000) 0x100000, true, false),
      (daOn (dvOn (reg vm 1 7)) 0x0040000000000000, true, true),
      (dcOn (daOn (dvOn (reg vm 1 7)) 0x0040000000000000) 0x100000, true, true)] : List (State × Bool × Bool)).all
      (fun p => match p.1.dataReq (.stb 1 2 0) with
        | some (u, q) => !p.1.iaMatch && !p.1.fen u && reach p.1 q == some 0 && q.va == 0 && q.value != .free
            && p.1.daHit q 0 == p.2.1 && p.1.dvHit q false == p.2.2
        | none => false) = true ∧
      ((daOn vm 0x0020000000000000).dataReq (.ldl 1 2 0)).any
        (fun r => (daOn vm 0x0020000000000000).daHit r.2 0) = true := by decide +kernel

/-- TranslationFaults for VSTW_UL at the end and VSTW_UH at the start of a block: four and eight bytes that match DV_MATCH or do
not, and none, which match with an empty mask only. -/
theorem witness_narrowVectorMatches :
    ([(dvOn (vreg (reg vm 2 24) 1 7), .vstwUl 1 2 0, 0, true), (dvOn (vreg (reg vm 2 24) 1 6), .vstwUl 1 2 0, 0, false),
      (dvOn (vreg (reg vm 2 28) 1 7), .vstwUl 1 2 0, 4, false),
      (dvOn (vreg (reg vm 2 4) 1 (7 <<< 224)), .vstwUh 1 2 0, 0, true),
      (dvOn (vreg vm 1 7), .vstwUh 1 2 0, 0, false),
      (dcOn { vm with dbox := { vm.dbox with dvMask := 0 } } 0x80000, .vstwUh 1 2 0, 0, true)]
      : List (State × Instr × Nat × Bool)).all
      (fun p => match p.1.dataReq p.2.1 with
        | some (u, q) => !p.1.iaMatch && !p.1.fen u && (reach p.1 q).isSome && q.value != .free && q.lane == p.2.2.1
            && p.1.dvHit q false == p.2.2.2
        | none => false) = true := by decide +kernel

/-- TranslationBuffers, for the DTB: the last address of a block of each granularity and the next one, another virtual machine, another
process with and without KS, a right present and missing, FOR and FOW. -/
theorem witness_dtbFill :
    ((List.range 4).all fun g =>
      let s := mapped um (BitVec.ofNat 64 (0x8810 + 32 * g))
      (match s.dtbLookup .um true true (BitVec.ofNat 64 (2 ^ (13 + 5 * g) - 1)) with | .pa _ => true | _ => false)
        && s.dtbLookup .um true true (BitVec.ofNat 64 (2 ^ (13 + 5 * g))) == .miss) = true ∧
      ({ mapped um 0x0810 with dbox := { um.dbox with dtbPcr := 0x4000000000000000 } } : State).dtbLookup .um true false 0
        = .miss ∧
      ({ mapped um 0x0800 with dbox := { um.dbox with dtbPcr := 0x0040000000000000 } } : State).dtbLookup .um true false 0
        = .miss ∧
      ({ mapped um 0x0810 with dbox := { um.dbox with dtbPcr := 0x0040000000000000 } } : State).dtbLookup .um true false 0
        = .pa 0 ∧
      (mapped um 0x8802).dtbLookup .um true false 0 = .denied false true false ∧
      (mapped um 0x8804).dtbLookup .um false true 0 = .denied false false true ∧
      (mapped um 0x0804).dtbLookup .um true true 0 = .denied true false true := by decide +kernel

/-- TranslationBuffers, for the ITB: the last address of a block of each granularity and the next one, another virtual
machine, another process with and without KS, a right present and missing in each mode; an entry that each invalidation takes
out, and one that only ITB_IA and ITB_IV do. -/
theorem witness_itbFill :
    ((List.range 4).all fun g =>
      let s := um.itbFill (BitVec.ofNat 64 (0x0810 + 32 * g))
      (match ({ s with pc := BitVec.ofNat 64 (2 ^ (13 + 5 * g) - 1) } : State).itbLookup with | .hit _ _ => true | _ => false)
        && ({ s with pc := BitVec.ofNat 64 (2 ^ (13 + 5 * g) + 3) } : State).itbLookup == .miss) = true ∧
      (({ um.itbFill 0x0810 with ibox := { um.ibox with vpcr := 0x100000000000 } } : State).itbLookup == .miss
        && ({ um.itbFill 0x0800 with ibox := { um.ibox with upcr := 0x8000000007 } } : State).itbLookup == .miss
        && ({ um.itbFill 0x0810 with ibox := { um.ibox with upcr := 0x8000000007 } } : State).itbLookup != .miss) = true ∧
      ([(0x0800, um), (0x0400, km), (0x0200, { vm with pc := 0x1001 })] : List (Word × State)).all (fun p =>
        (p.2.itbFill p.1).itbLookup != .noExecute && (p.2.itbFill 0).itbLookup == .noExecute) = true ∧
      ([0x02, 0x03, 0x04, 0x05, 0x06] : List (BitVec 8)).all (fun i =>
        gives ((um.itbFill 0x0800).csrWrite (csrOf i) 0) fun t => t.itb.isEmpty) = true ∧
      ([(0x02, 0), (0x03, 0), (0x04, 1), (0x05, 1)] : List (BitVec 8 × Nat)).all (fun p =>
        gives ((um.itbFill 0x0810).csrWrite (csrOf p.1) 0) fun t => t.itb.length == p.2) = true := by decide +kernel

/-- AddressFaults: the first address past the sign-extended range; addresses one past alignment. -/
theorem witness_addressFaults :
    (!vm.dbox.daMatch.getLsbD 53 && !vm.dbox.daMatch.getLsbD 54 && !vm.dvEn && !vm.iaMatch && !vm.fen .simd) = true ∧
      ((loadForms ++ storeForms ++ vectorLoadForms ++ vectorStoreForms ++ atomicForms ++ [Instr.lldw 1 2 0]).all fun i =>
        match (reg vm 2 0x0010000000000000).dataReq i with
        | some (_, q) => (reg vm 2 0x0010000000000000).signChecked q && badSext q.va
        | none => false) = true ∧
      ([Instr.ldhu 1 2 0, .ldl 1 2 0, .stw 1 2 0, .vldd 1 2 0, .vstwU 1 2 0, .ldwInc 1 2 0, .lldl 1 2 0].all fun i =>
        match (reg vm 2 1).dataReq i with
        | some (_, q) => !badSext q.va && q.va.toNat % q.align != 0
        | none => false) = true := by decide +kernel

/-- TranslationFaults: a miss of each kind, a denied load, two entries for one page. TranslationBuffers: the same page,
read by UM, and denied to a write. -/
theorem witness_translationFaults :
    (um.dtbLookup .um true false 0 = .miss ∧ (um.loadReq 0 8 .scalar).bypasses = false) ∧
      (hm.dtbLookup .hm true false 0 = .miss ∧ (hm.dataReq (.priLdlVpte 1 2 0)).any (fun r => r.2.vpte && !r.2.bypasses) = true) ∧
      (mapped um 0x0800).dtbLookup .um false true 0 = .denied true false false ∧
      (mapped (mapped um 0x0800) 0x0800).dtbLookup .um true false 0 = .multiple ∧
      um.dtb = [] ∧ ((0 : Word).extractLsb' 13 40 : BitVec 40) = um.dbox.dtbTag.extractLsb' 13 40 ∧
      (0x0800 : Word).getLsbD 11 = true ∧ (0x0800 : Word).getLsbD 1 = false ∧ (0x0800 : Word).getLsbD 15 = false := by
  decide +kernel

/-- One interrupt pending and enabled, by number. -/
def pendingOne (n : Nat) : State :=
  { vm with ibox := { vm.ibox with pending := (1 : BitVec 256) <<< n, ier := (1 : BitVec 256) <<< n } }

/-- InterruptTaken: each of its four classes and none. -/
theorem witness_interrupts :
    (pendingOne 0xFE).recognised = some .mchk ∧ (pendingOne 0xFF).recognised = some .sleep ∧
      (pendingOne 0).recognised = some .interrupt1 ∧
      ({ vm with ibox := { vm.ibox with iiEr := 1, ii0 := 1 } } : State).recognised = some .interrupt0 ∧
      vm.recognised = none ∧ (vm.inputs = [] ∧ vm.lateErrors = [] ∧ vm.coreState ≠ .asleep) := by decide +kernel

/-- StepKeepsMemory, StepKeepsBuffers, StepKeepsFields: a store, a fill of the ITB, a write of FPCR. -/
theorem witness_invariants :
    (vm.plat.memSize ≤ 2 ^ 46 ∧ Memory.wf vm.mem = true) ∧
      gives (step ((reg (reg vm 1 5) 2 0x30000).withFetchWord 32 0xAC220000)) (fun t => memRead t.mem 0x30000 == 5) = true ∧
      gives (step ((reg hm 9 0x20).withFetchWord 32 0x193FFF01)) (fun t => t.itb.length == 1) = true ∧
      gives (step (vm.withFetchWord 32 0x63FF0AFF)) (fun t => t.fpcr == 3) = true := by decide +kernel

/-- HmOnlyThroughEntries, OnlyPriRetLeavesHm, PrivilegedStateProtected, StoreFrame, RegisterFrame. -/
theorem witness_frames :
    (vm.mode ≠ .hm ∧ vm.dcErrors = [] ∧ (vm.dbox.dcCtl.extractLsb' 12 3 : BitVec 3) = 0) ∧ gives (step (vm.withFetchWord 32 0x02000083)) (fun t => t.mode == .hm) = true ∧
      gives (step (vm.withFetchWord 32 0x43FF075F)) (fun t => t.mode == .vm) = true ∧
      gives (exec (.priRet 8) (reg hm 8 3)) (fun t => t.mode == .um) = true ∧
      gives (exec (.stb 1 2 0) (reg vm 1 7)) (fun t => memRead t.mem 0 == 7 && memRead vm.mem 0 == 0) = true ∧
      gives (exec (.addl 1 2 3) vm) (fun t => t.gpr == vm.gpr) = true := by decide +kernel

end Sys2Proof.Tests
end

section
/-! The registers an instruction may write, where it may lead, and the fields the spec fixes: the terms in which the effect
of every instruction is said once. -/

namespace Sys2Proof.Machine

/-! ## Entry points -/

/-- A privileged entry lies a multiple of 128 bytes, from 0x800 to 0x7F80, past PRI_BASE (R383, R591). -/
def EntryOffset (off : BitVec 16) : Prop := off.toNat % 128 = 0 ∧ 0x800 ≤ off.toNat ∧ off.toNat < 0x8000

/-- The pc stands at a privileged entry (R592). -/
def State.atEntry (s : State) : Prop := ∃ off, EntryOffset off ∧ s.pc = entryAddr s.ibox.priBase off

theorem entryOffset_exc (e : Exc) : EntryOffset e.offset := by
  cases e <;> simp [EntryOffset, Exc.offset]

theorem modeOf_eq_hm {b : BitVec 2} (h : b.toNat = 0) : modeOf b = .hm := by simp [modeOf, h]

/-- An entry point is in HM: its mode bits are those of a multiple of 128. -/
theorem State.atEntry.mode {s : State} (h : s.atEntry) : s.mode = .hm := by
  obtain ⟨off, ⟨hoff, -, -⟩, hpc⟩ := h
  refine modeOf_eq_hm ?_
  rw [State.modeBits, hpc, entryAddr, BitVec.extractLsb'_append_eq_of_add_le (by omega)]
  simp only [BitVec.extractLsb'_toNat, Nat.shiftRight_zero]
  omega

theorem mode_congr {s t : State} (h : t.pc = s.pc) : t.mode = s.mode := by simp only [State.mode, State.modeBits, h]

theorem toNat_extract_two (w : Word) : (w.extractLsb' 0 2).toNat = w.toNat % 4 := by
  simp [BitVec.extractLsb'_toNat]

/-- Going on by four bytes keeps the mode bits. -/
@[simp] theorem mode_advance (s : State) : s.advance.mode = s.mode := by
  have h : (s.pc + 4).extractLsb' 0 2 = s.pc.extractLsb' 0 2 := by
    apply BitVec.eq_of_toNat_eq
    rw [toNat_extract_two, toNat_extract_two, BitVec.toNat_add]
    have h4 : (4 : Word).toNat = 4 := rfl
    omega
  simp only [State.mode, State.modeBits, State.advance_pc, h]

/-- A target takes the mode bits of the pc it comes from. -/
theorem extract_withMode (t pc : Word) : (withMode t pc).extractLsb' 0 2 = pc.extractLsb' 0 2 := by
  ext i hi
  have : i = 0 ∨ i = 1 := by omega
  rcases this with rfl | rfl <;> simp [withMode, clearLow2]

@[simp] theorem mode_transferTo (s : State) (t : Word) : (s.transferTo t).mode = s.mode := by
  simp only [State.mode, State.modeBits, State.transferTo_pc, extract_withMode]

@[simp] theorem sext53_sext53 (w : Word) : sext53 (sext53 w) = sext53 w := by
  unfold sext53
  congr 1
  ext i hi
  simp [BitVec.getElem_signExtend, BitVec.getLsbD_eq_getElem (show i < 64 by omega), hi]

/-! ## Views of the state -/

/-- The registers, with the entry base, the enables and the size of the lock: nothing of it changes when an exception is
taken. -/
def State.registers (s : State) :=
  (s.gpr, s.sr, s.vr, s.kinds, s.fpcr, s.lock.size, s.ibox.priBase, s.ibox.isCtl)

/-- Where the program stands, and the two addresses that say where it stood. -/
def State.place (s : State) := (s.pc, s.ibox.excPc, s.sleepBreak)

/-- All that the frames and the fixed fields speak of. -/
def State.view (s : State) := (s.registers, s.place)

theorem registers_of_view {s t : State} (h : t.view = s.view) : t.registers = s.registers := congrArg Prod.fst h

theorem place_of_view {s t : State} (h : t.view = s.view) : t.place = s.place := congrArg Prod.snd h

theorem pc_of_view {s t : State} (h : t.view = s.view) : t.pc = s.pc := congrArg Prod.fst (place_of_view h)

theorem sleepBreak_of_view {s t : State} (h : t.view = s.view) : t.sleepBreak = s.sleepBreak :=
  congrArg (fun p => p.2.2) (place_of_view h)

/-- What memory operations and error records change is outside the view. -/
theorem view_of_withoutMemory {s t : State} (h : t.withoutMemory = s.withoutMemory) : t.view = s.view :=
  show t.withoutMemory.view = s.withoutMemory.view from congrArg State.view h

/-- The fixed fields are a matter of the view. -/
theorem fieldsOk_of_view {s t : State} (h : t.view = s.view) (hs : s.fieldsOk) : t.fieldsOk := by
  simp only [State.view, State.registers, State.place, Prod.mk.injEq] at h
  obtain ⟨⟨-, -, -, -, hf, hl, hb, -⟩, -, he, hk⟩ := h
  simpa only [State.fieldsOk, hf, hl, hb, he, hk] using hs

/-! ## Taking an exception -/

/-- `t` is `s` after an exception or an interrupt has been taken: the registers are as they were, the pc is at an entry, and
the addresses recorded are sign-extended. -/
structure Entered (s t : State) : Prop where
  registers : t.registers = s.registers
  atEntry : t.atEntry
  excPc : sext53 t.ibox.excPc = t.ibox.excPc
  sleepBreak : t.sleepBreak = s.sleepBreak ∨ sext53 t.sleepBreak = t.sleepBreak

theorem Entered.of_view {s u t : State} (h : Entered u t) (hv : u.view = s.view) : Entered s t :=
  ⟨h.registers.trans (registers_of_view hv), h.atEntry, h.excPc, sleepBreak_of_view hv ▸ h.sleepBreak⟩

/-- What only the view shows stays entered. -/
theorem Entered.view {s u t : State} (h : Entered s u) (hv : t.view = u.view) : Entered s t := by
  have hr := registers_of_view hv
  have hp := place_of_view hv
  simp only [State.registers, Prod.mk.injEq] at hr
  simp only [State.place, Prod.mk.injEq] at hp
  obtain ⟨-, -, -, -, -, -, hb, -⟩ := hr
  obtain ⟨hpc, he, hk⟩ := hp
  refine ⟨(registers_of_view hv).trans h.registers, ?_, ?_, ?_⟩
  · obtain ⟨off, ho, h⟩ := h.atEntry
    exact ⟨off, ho, by rw [hpc, hb, h]⟩
  · rw [he]; exact h.excPc
  · rw [hk]; exact h.sleepBreak

/-- Taking an exception from a state with the registers of `s`. -/
theorem entered_enter {s u : State} (e : Exc) (p : Word) (hr : u.registers = s.registers)
    (hk : u.sleepBreak = s.sleepBreak) : Entered s (u.enter e p) :=
  ⟨hr, ⟨_, entryOffset_exc e, rfl⟩, sext53_sext53 p, .inl hk⟩

theorem entered_enterInterrupt (s : State) (e : Exc) : Entered s (s.enterInterrupt e) := by
  refine ⟨rfl, ⟨_, entryOffset_exc e, rfl⟩, sext53_sext53 _, ?_⟩
  by_cases he : e = .sleep
  · exact .inr (by simp [State.enterInterrupt, he])
  · exact .inl (by simp [State.enterInterrupt, he])

theorem entered_raiseOpcdec (s : State) (b : Bool) : Entered s (s.raiseOpcdec b) := entered_enter _ _ rfl rfl
theorem entered_raiseFen (s : State) : Entered s s.raiseFen := entered_enter _ _ rfl rfl
theorem entered_raiseIaMatch (s : State) : Entered s s.raiseIaMatch := entered_enter _ _ rfl rfl
theorem entered_raiseBadIva (s : State) (t : Word) : Entered s (s.raiseBadIva t) := entered_enter _ _ rfl rfl
theorem entered_raiseIdaMatch (s : State) (t : Word) : Entered s (s.raiseIdaMatch t) := entered_enter _ _ rfl rfl
theorem entered_raiseDtbDouble (s : State) : Entered s s.raiseDtbDouble := entered_enter _ _ rfl rfl
theorem entered_raiseItbMiss (s : State) : Entered s s.raiseItbMiss := entered_enter _ _ rfl rfl
theorem entered_raiseItbAccess (s : State) : Entered s s.raiseItbAccess := entered_enter _ _ rfl rfl

theorem entered_raiseArith (s : State) (p b : Word) (r : BitVec 5) : Entered s (s.raiseArith p b r) :=
  entered_enter _ _ rfl rfl

theorem entered_raiseData (s : State) (q : MemReq) (e : Exc) (b x v : Word) : Entered s (s.raiseData q e b x v) := by
  unfold State.raiseData
  dsimp only
  split
  · exact entered_enter (s := s) _ _ rfl rfl
  · exact entered_enter (s := s) _ _ rfl rfl

theorem entered_raiseDataPhys (s : State) (q : MemReq) (b x : Word) (pa : PAddr) :
    Entered s (s.raiseDataPhys q b x pa) := (entered_raiseData s.drawn q _ b x _).of_view rfl

theorem entered_raiseBadFetch (s : State) : Entered s s.raiseBadFetch := by
  unfold State.raiseBadFetch
  split
  · exact entered_enter _ _ rfl rfl
  · exact entered_raiseItbAccess s

/-! ## The checks of a data access -/

/-- The checks change nothing in view, or take an exception. -/
def Checked.Sound (s : State) : Checked → Prop
  | .ok _ t => t.view = s.view
  | .trap t => Entered s t
  | .stuck _ => True

theorem Checked.Sound.of_view {s u : State} {c : Checked} (h : c.Sound u) (hv : u.view = s.view) : c.Sound s := by
  cases c with
  | ok pa t => exact Eq.trans h hv
  | trap t => exact Entered.of_view h hv
  | stuck f => trivial

theorem addressCheck_entered {s t : State} {q : MemReq} (h : s.addressCheck q = some t) : Entered s t := by
  unfold State.addressCheck at h
  split at h
  · cases h; exact entered_raiseData _ _ _ _ _ _
  · split at h
    · cases h; exact entered_raiseData _ _ _ _ _ _
    · cases h

theorem translate_sound (s : State) (q : MemReq) : (s.translate q).Sound s := by
  unfold State.translate
  split
  · rfl
  · split
    · rfl
    · exact entered_raiseData _ _ _ _ _ _
    · split
      · exact entered_raiseDtbDouble s
      · exact entered_raiseData _ _ _ _ _ _
    · trivial

/-- The state with which an access goes on past the value match is the state itself, or one free value further. -/
theorem ite_drawn_view (s : State) (c : Prop) [Decidable c] : (if c then s.drawn else s).view = s.view := by
  split <;> rfl

theorem matchCheck_entered {s t : State} {q : MemReq} {pa : PAddr} (h : s.matchCheck q pa = some t) : Entered s t := by
  have hv := ite_drawn_view s (s.dvEn && q.value = .free)
  unfold State.matchCheck at h
  dsimp only at h
  split at h
  · split at h
    · cases h; exact (entered_raiseDataPhys _ _ _ _ _).of_view hv
    · cases h
  · split at h
    · cases h; exact (entered_raiseData _ _ _ _ _ _).of_view hv
    · split at h
      · cases h; exact (entered_raiseDataPhys _ _ _ _ _).of_view hv
      · cases h

theorem view_scError (s : State) (i : Nat) : (s.scError i).view = s.view :=
  view_of_withoutMemory (withoutMemory_scError s i)

theorem view_countCorrected (s : State) : s.countCorrected.view = s.view :=
  view_of_withoutMemory (withoutMemory_countCorrected s)

theorem view_answerError (s : State) (q : MemReq) (pa : PAddr) : (s.answerError q pa).view = s.view := by
  unfold State.answerError
  split
  · exact view_scError s 14
  · rfl

theorem armedError_sound (s : State) (q : MemReq) (pa : PAddr) : (s.armedError q pa).Sound s := by
  have struck (b x : Word) : Entered s ((({ s with armed := none } : State).scError 12).raiseDataPhys q b x pa) :=
    (entered_raiseDataPhys _ _ _ _ _).of_view (view_scError _ 12)
  unfold State.armedError
  dsimp only
  split
  · split
    · rfl
    · split
      · exact struck _ _
      · rfl
  · split
    · exact struck _ _
    · rfl
  · split
    · rfl
    · split
      · split
        · exact (entered_enterInterrupt _ _).of_view rfl
        · rfl
      · rfl
  · rfl

theorem dataError_sound (s : State) (q : MemReq) (pa : PAddr) : (s.dataError q pa).Sound s := by
  unfold State.dataError
  split
  · exact (entered_raiseDataPhys _ _ _ _ _).of_view (view_countCorrected s)
  · split
    · exact entered_raiseDataPhys _ _ _ _ _
    · exact armedError_sound s q pa

theorem accessCheck_sound (s : State) (q : MemReq) (pa : PAddr) : (s.accessCheck q pa).Sound s := by
  have hv := ite_drawn_view s (s.dvEn && q.value = .free)
  unfold State.accessCheck
  split
  · exact matchCheck_entered ‹_›
  · dsimp only
    generalize (if s.dvEn && q.value = .free then s.drawn else s) = u at hv ⊢
    split
    · exact (entered_raiseData _ _ _ _ _ _).of_view hv
    · split
      · exact ((entered_raiseDataPhys _ _ _ _ _).of_view (view_answerError _ _ _)).of_view hv
      · exact (dataError_sound _ _ _).of_view hv

theorem check_sound (s : State) (q : MemReq) : (s.check q).Sound s := by
  have ht := translate_sound s q
  unfold State.check
  split
  · exact addressCheck_entered ‹_›
  · split
    · rename_i pa t hpa
      rw [hpa] at ht
      exact (accessCheck_sound t q pa).of_view ht
    · exact ht

end Sys2Proof.Machine
end

section
/-! The effect of every instruction, said once: the registers it may write, where it may lead, and that it keeps the fields
the spec fixes. -/

namespace Sys2Proof.Machine

/-! ## What an instruction may change -/

/-- What an instruction may write, and whether it may leave for any mode. -/
structure Scope where
  /-- The integer register. -/
  destR : Option Reg := none
  /-- The floating-point or vector register. -/
  destF : Option Reg := none
  /-- It is a SYS_CALL, which writes SR23. -/
  sysCall : Bool := false
  fpcr : Bool := false
  /-- It is a PRI_RET, which takes its mode from a register. -/
  priRet : Bool := false

def Instr.isPriRet : Instr → Bool
  | .priRet _ | .priRetB _ => true
  | _ => false

/-- The scope of an instruction, from the model's own tables of destinations. -/
def Instr.scope (i : Instr) : Scope :=
  { destR := Instr.destR i, destF := Instr.destF i, sysCall := Instr.isSysCall i, fpcr := Instr.writesFpcr i,
    priRet := Instr.isPriRet i }

/-- `t` is `s` but for registers in scope, and keeps the fields the spec fixes. -/
structure Frame (c : Scope) (s t : State) : Prop where
  gpr : ∀ k : Fin 32, c.destR ≠ some (BitVec.ofFin k) → t.gpr[k] = s.gpr[k]
  sr : ∀ k : Fin 10, (∀ r, c.destR = some r → s.srOf r ≠ some k) → (c.sysCall = true → k ≠ 9) → t.sr[k] = s.sr[k]
  vr : ∀ k : Fin 32, c.destF ≠ some (BitVec.ofFin k) → t.vr[k] = s.vr[k] ∧ t.kinds[k] = s.kinds[k]
  fpcr : c.fpcr = false → t.fpcr = s.fpcr
  fields : s.fieldsOk → t.fieldsOk

/-- The mode stays, or the pc goes to an entry. -/
def State.LeadsTo (s t : State) : Prop := t.mode = s.mode ∨ t.atEntry

/-- The effect of an instruction of scope `c`. -/
structure Effect (c : Scope) (s t : State) : Prop extends Frame c s t where
  leads : c.priRet = false → s.LeadsTo t

/-- Part of an instruction of scope `c`, its pc not moved on yet. -/
structure Writes (c : Scope) (s t : State) : Prop extends Frame c s t where
  pc : t.pc = s.pc

section
variable {c : Scope} {s t u : State}

theorem Frame.of_registers (hr : t.registers = s.registers) (hf : s.fieldsOk → t.fieldsOk) : Frame c s t := by
  simp only [State.registers, Prod.mk.injEq] at hr
  obtain ⟨hg, hs, hv, hk, hfp, -⟩ := hr
  exact ⟨fun _ _ => by rw [hg], fun _ _ _ => by rw [hs], fun _ _ => by rw [hv, hk]; exact ⟨rfl, rfl⟩, fun _ => hfp, hf⟩

/-- A frame goes on over what leaves the registers as they are. -/
theorem Frame.next (h : Frame c s u) (hr : t.registers = u.registers) (hf : u.fieldsOk → t.fieldsOk) : Frame c s t := by
  simp only [State.registers, Prod.mk.injEq] at hr
  obtain ⟨hg, hs, hv, hk, hfp, -⟩ := hr
  exact ⟨fun k hd => by rw [hg]; exact h.gpr k hd, fun k hd h9 => by rw [hs]; exact h.sr k hd h9,
    fun k hd => by rw [hv, hk]; exact h.vr k hd, fun hc => hfp.trans (h.fpcr hc), fun hs => hf (h.fields hs)⟩

theorem srOf_of_view (h : u.view = s.view) (r : Reg) : u.srOf r = s.srOf r := by
  have hr := registers_of_view h
  simp only [State.registers, Prod.mk.injEq] at hr
  obtain ⟨-, -, -, -, -, -, -, hc⟩ := hr
  have ha : u.srActive = s.srActive := by simp only [State.srActive, mode_congr (pc_of_view h), hc]
  rw [State.srOf, State.srOf, ha]

theorem srOf_advance (s : State) (r : Reg) : s.advance.srOf r = s.srOf r := by
  have ha : s.advance.srActive = s.srActive := by simp only [State.srActive, mode_advance, State.advance_ibox]
  rw [State.srOf, State.srOf, ha]

theorem Frame.of_view (h : Frame c u t) (hv : u.view = s.view) : Frame c s t := by
  have hr := registers_of_view hv
  simp only [State.registers, Prod.mk.injEq] at hr
  obtain ⟨hg, hs, hvr, hk, hfp, -⟩ := hr
  exact ⟨fun k hd => by rw [← hg]; exact h.gpr k hd,
    fun k hd h9 => by rw [← hs]; exact h.sr k (fun r hr => by rw [srOf_of_view hv]; exact hd r hr) h9,
    fun k hd => by rw [← hvr, ← hk]; exact h.vr k hd, fun hc => (h.fpcr hc).trans hfp,
    fun hs => h.fields (fieldsOk_of_view hv hs)⟩

theorem Writes.of_view (h : Writes c u t) (hv : u.view = s.view) : Writes c s t :=
  ⟨h.toFrame.of_view hv, h.pc.trans (pc_of_view hv)⟩

theorem Writes.of_same (hv : t.view = s.view) : Writes c s t :=
  ⟨.of_registers (registers_of_view hv) (fieldsOk_of_view hv), pc_of_view hv⟩

theorem Writes.refl : Writes c s s := .of_same rfl

theorem Effect.of_view (h : Effect c u t) (hv : u.view = s.view) : Effect c s t :=
  ⟨h.toFrame.of_view hv, fun hc => (h.leads hc).imp_left fun hm => hm.trans (mode_congr (pc_of_view hv))⟩

/-- The fields of a state entered. -/
theorem Entered.fields (h : Entered s t) (hs : s.fieldsOk) : t.fieldsOk := by
  have hr := h.registers
  simp only [State.registers, Prod.mk.injEq] at hr
  obtain ⟨-, -, -, -, hf, hl, hb, -⟩ := hr
  obtain ⟨hsf, hsb, -, hsk, hsl⟩ := hs
  refine ⟨by rw [hf]; exact hsf, by rw [hb]; exact hsb, h.excPc, ?_, by rw [hl]; exact hsl⟩
  obtain hk | hk := h.sleepBreak
  · rw [hk]; exact hsk
  · exact hk

/-- An exception after what an instruction wrote. -/
theorem Frame.entered (h : Frame c s u) (he : Entered u t) : Effect c s t :=
  ⟨h.next he.registers he.fields, fun _ => .inr he.atEntry⟩

theorem Entered.effect (he : Entered s t) : Effect c s t :=
  ⟨.of_registers he.registers he.fields, fun _ => .inr he.atEntry⟩

/-- Where a frame starts, the pc is of no matter as long as the mode stays. -/
theorem Frame.of_advance (h : Frame c s.advance t) : Frame c s t :=
  ⟨h.gpr, fun k hd h9 => h.sr k (fun r hr => by rw [srOf_advance]; exact hd r hr) h9, h.vr, h.fpcr, h.fields⟩

theorem Frame.advance (h : Frame c s u) : Frame c s u.advance := h.next rfl id

theorem Writes.advance (h : Writes c s u) : Effect c s u.advance :=
  ⟨h.toFrame.advance, fun _ => .inl ((mode_advance u).trans (mode_congr h.pc))⟩

/-- Going on with nothing in view changed. -/
theorem effect_advance (hu : u.view = s.view) : Effect c s u.advance := (Writes.of_same hu).advance

theorem Writes.transferTo (h : Writes c s u) (a : Word) : Effect c s (u.transferTo a) :=
  ⟨h.toFrame.next rfl id, fun _ => .inl ((mode_transferTo u a).trans (mode_congr h.pc))⟩

/-! ## Register writes -/

theorem fieldsOk_writeReg (r : Reg) (v : Word) (h : s.fieldsOk) : (s.writeReg r v).fieldsOk := by
  simpa [State.fieldsOk] using h

theorem writes_writeReg (r : Reg) (v : Word) (hr : c.destR = some r) : Writes c s (s.writeReg r v) := by
  refine ⟨⟨fun k hk => ?_, fun k hk _ => ?_, fun k _ => by simp, fun _ => by simp, fieldsOk_writeReg r v⟩, by simp⟩
  · by_cases h31 : r = 31
    · rw [h31, writeReg_31]
    · cases hs : s.srOf r with
      | some j => rw [writeReg_sr v h31 hs]
      | none =>
        rw [writeReg_gpr v h31 hs]
        refine Vector.getElem_set_ne r.isLt _ fun hne => hk ?_
        rw [hr]
        exact congrArg some (BitVec.eq_of_toNat_eq hne)
  · by_cases h31 : r = 31
    · rw [h31, writeReg_31]
    · cases hs : s.srOf r with
      | some j =>
        rw [writeReg_sr v h31 hs]
        refine Vector.getElem_set_ne j.isLt _ fun hne => hk r hr ?_
        rw [hs, Fin.ext hne]
      | none => rw [writeReg_gpr v h31 hs]

theorem fieldsOk_writeV (r : Reg) (v : Vec) (k : DataKind) (h : s.fieldsOk) : (s.writeV r v k).fieldsOk := by
  simpa [State.fieldsOk] using h

theorem writes_writeV (r : Reg) (v : Vec) (d : DataKind) (hr : c.destF = some r) : Writes c s (s.writeV r v d) := by
  refine ⟨⟨fun k _ => by simp, fun k _ _ => by simp, fun k hk => ?_, fun _ => by simp, fieldsOk_writeV r v d⟩, by simp⟩
  by_cases h31 : r = 31
  · simp [State.writeV, h31]
  · have hne : r.toNat ≠ k.val := fun hne => hk (hr.trans (congrArg some (BitVec.eq_of_toNat_eq hne)))
    rw [State.writeV, if_neg h31]
    exact ⟨Vector.getElem_set_ne r.isLt _ hne, Vector.getElem_set_ne r.isLt _ hne⟩

/-- A scalar write is a write of the whole vector register, and draws. -/
theorem writes_writeF (r : Reg) (v : Word) (d : DataKind) (hr : c.destF = some r) : Writes c s (s.writeF r v d) := by
  unfold State.writeF
  split
  · exact .refl
  · have h := writes_writeV (c := c) (s := s) r (s.free.extractLsb' 0 192 ++ v) d hr
    exact ⟨h.toFrame.next rfl id, h.pc⟩

/-- What an instruction works on may cost one free value. -/
theorem useF_view (s : State) (r : Reg) (k : DataKind) : (s.useF r k).2.view = s.view := by
  obtain h | h := useF_state s r k <;> rw [h]
  rfl

theorem useV_view (s : State) (r : Reg) (k : DataKind) : (s.useV r k).2.view = s.view := by
  obtain h | h := useV_state s r k <;> rw [h]
  rfl

end

/-! ## Shared shapes -/

/-- Every next state of the outcome is an effect of scope `c` on `s`. -/
def Effects (c : Scope) (s : State) (r : Result) : Prop := ∀ t, r = .next t → Effect c s t

section
variable {c : Scope} {s : State}

theorem effects_next {t : State} (h : Effect c s t) : Effects c s (.next t) := fun _ ht => by cases ht; exact h

theorem effects_atDecode {ill : Option Bool} {p : Pipe} {run : Result} (h : Effects c s run) :
    Effects c s (s.atDecode ill p run) := by
  intro t ht
  obtain ⟨b, -, hd⟩ | ⟨-, -, hd⟩ | ⟨-, -, -, hd⟩ | ⟨-, -, hd⟩ := atDecode_cases s ill p run <;> rw [hd] at ht
  · cases ht; exact (entered_raiseOpcdec s b).effect
  · cases ht; exact (entered_raiseIaMatch s).effect
  · cases ht; exact (entered_raiseFen s).effect
  · exact h t ht

theorem effects_execNull : Effects c s s.execNull := effects_atDecode (effects_next (effect_advance rfl))

/-- An instruction that is null in one case. -/
theorem effects_orNull {p : Prop} [Decidable p] {r : Result} (h : Effects c s r) :
    Effects c s (if p then s.execNull else r) := by
  split
  · exact effects_execNull
  · exact h

theorem effects_andThen {k : Checked} {run : PAddr → State → State} (hk : k.Sound s)
    (h : ∀ pa t, t.view = s.view → Effect c s (run pa t)) : Effects c s (k.andThen run) := by
  intro t ht
  obtain ⟨pa, u, rfl, rfl⟩ | rfl := andThen_next ht
  · exact h pa u hk
  · exact Entered.effect hk

theorem view_loadPhys (s : State) (pa : PAddr) (n : Nat) (nc : Bool) : (s.loadPhys pa n nc).2.view = s.view :=
  view_of_withoutMemory (withoutMemory_loadPhys s pa n nc)

theorem view_storePhys (s : State) (pa : PAddr) (n : Nat) (v : Vec) (nc : Bool) :
    (s.storePhys pa n v nc).view = s.view := view_of_withoutMemory (withoutMemory_storePhys s pa n v nc)

theorem effects_execLoad {u : State} {q : MemReq} {n : Nat} {use : State → Vec → State} (hu : u.view = s.view)
    (h : ∀ t v, Writes c t (use t v)) : Effects c s (u.execLoad q n use) := by
  refine effects_andThen ((check_sound u q).of_view hu) fun pa t ht => ?_
  exact ((h _ _).of_view ((view_loadPhys t _ _ _).trans ht)).advance

theorem effects_execStore {u : State} {q : MemReq} {n : Nat} {v : Vec} (hu : u.view = s.view) :
    Effects c s (u.execStore q n v) :=
  effects_andThen ((check_sound u q).of_view hu) fun _ t ht =>
    effect_advance ((view_storePhys t _ _ _ _).trans ht)

/-! ### Loads and stores -/

theorem effects_execIntLoad {ra : Reg} {q : MemReq} {n : Nat} {ext : Word → Word} (hr : c.destR = some ra) :
    Effects c s (s.execIntLoad ra q n ext) :=
  effects_orNull (effects_atDecode (effects_execLoad rfl fun _ _ => writes_writeReg _ _ hr))

theorem effects_execFloatLoad {fa : Reg} {q : MemReq} {n : Nat} {k : DataKind} {conv : Word → Word}
    (hr : c.destF = some fa) : Effects c s (s.execFloatLoad fa q n k conv) :=
  effects_orNull (effects_atDecode (effects_execLoad rfl fun _ _ => writes_writeF _ _ _ hr))

theorem effects_execVecLoad {fa : Reg} {q : MemReq} {n : Nat} {k : DataKind} {conv : Vec → Vec}
    (hr : c.destF = some fa) : Effects c s (s.execVecLoad fa q n k conv) :=
  effects_orNull (effects_atDecode (effects_execLoad rfl fun _ _ => writes_writeV _ _ _ hr))

theorem effects_execPriLoad {ra : Reg} {q : MemReq} {n : Nat} (hr : c.destR = some ra) :
    Effects c s (s.execPriLoad ra q n) := by
  refine effects_atDecode ?_
  split
  · exact effects_next (effect_advance rfl)
  · exact effects_execLoad rfl fun _ _ => writes_writeReg _ _ hr

theorem effects_storeAtDecode {ill : Option Bool} {p : Pipe} {u : State} {q : MemReq} {n : Nat} {v : Vec}
    (hu : u.view = s.view) : Effects c s (s.atDecode ill p (u.execStore q n v)) :=
  effects_atDecode (effects_execStore hu)

theorem effects_execIntStore {va : Word} {n : Nat} {cls : MemClass} {v : Word} :
    Effects c s (s.execIntStore va n cls v) := effects_storeAtDecode rfl

theorem effects_execPriStore {q : MemReq} {n : Nat} {v : Word} : Effects c s (s.execPriStore q n v) :=
  effects_storeAtDecode rfl

theorem effects_execFloatStore {fa : Reg} {va : Word} {n : Nat} {cls : MemClass} {k : DataKind} {conv : Word → Word} :
    Effects c s (s.execFloatStore fa va n cls k conv) := by
  unfold State.execFloatStore
  exact effects_storeAtDecode (useF_view s fa k)

theorem effects_execVecStore {fa : Reg} {q : MemReq} {n : Nat} {k : DataKind} {conv : Vec → Vec} :
    Effects c s (s.execVecStore fa q n k conv) := by
  unfold State.execVecStore
  exact effects_storeAtDecode (useV_view s fa k)

theorem effects_execStoreLow {fa : Reg} {va : Word} {b align : Nat} {k : DataKind} {conv : Vec → Vec} :
    Effects c s (s.execStoreLow fa va b align k conv) := by
  unfold State.execStoreLow
  exact effects_execVecStore

theorem effects_execStoreHigh {fa : Reg} {va : Word} {b align : Nat} {k : DataKind} {conv : Vec → Vec} :
    Effects c s (s.execStoreHigh fa va b align k conv) := by
  unfold State.execStoreHigh
  exact effects_execVecStore

theorem effects_execStlU {ra rb : Reg} {disp : BitVec 16} : Effects c s (execStlU ra rb disp s) := by
  unfold execStlU
  exact effects_storeAtDecode rfl

/-! ### Cache control -/

theorem evictAnswer_sound (s : State) (q : MemReq) (pa : PAddr) : (s.evictAnswer q pa).Sound s := by
  unfold State.evictAnswer
  split
  · exact (entered_raiseDataPhys _ _ _ _ _).of_view (view_scError s 14)
  · split
    · exact armedError_sound s q pa
    · rfl

theorem view_lineEffect (s : State) (f : LineRule) (pa : PAddr) : (s.lineEffect f pa).view = s.view := by
  have h : (if f.leaves then s.flushLine (loc pa / 128) else if f.fills then s.fillLine (loc pa) else s).view
      = s.view := by
    split
    · exact view_of_withoutMemory (withoutMemory_flushLine _ _)
    · split
      · exact view_of_withoutMemory (withoutMemory_fillLine _ _)
      · rfl
  unfold State.lineEffect
  dsimp only
  generalize (if f.leaves then s.flushLine (loc pa / 128) else if f.fills then s.fillLine (loc pa) else s) = t at h ⊢
  split <;> exact h

theorem effects_execLineAt {q : MemReq} {f : LineRule} {pa : PAddr} : Effects c s (s.execLineAt q f pa) := by
  unfold State.execLineAt
  split
  · exact effects_next (effect_advance rfl)
  · split
    · exact effects_next (matchCheck_entered ‹_›).effect
    · split
      · exact effects_next (entered_raiseDataPhys _ _ _ _ _).effect
      · refine effects_andThen ?_ fun p t ht => effect_advance ((view_lineEffect t f p).trans ht)
        split
        · exact evictAnswer_sound s q pa
        · rfl

theorem effects_execLine {rb : Reg} {d : BitVec 16} {ill : Option Bool} {f : LineRule} :
    Effects c s (s.execLine rb d ill f) := by
  have hs := translate_sound s (s.lineReq rb d)
  refine effects_atDecode ?_
  split
  · exact effects_next (addressCheck_entered ‹_›).effect
  · split
    · rename_i pa t ht
      rw [ht] at hs
      exact fun u hu => (effects_execLineAt u hu).of_view hs
    · rename_i t ht
      rw [ht] at hs
      refine effects_next ?_
      split
      · exact Entered.effect hs
      · exact effect_advance rfl
    · exact fun t ht => by cases ht

theorem effects_execFetchd {rb : Reg} {d : BitVec 16} : Effects c s (execFetchd rb d s) := effects_execLine

theorem effects_execFetchdE {rb : Reg} {d : BitVec 16} : Effects c s (execFetchdE rb d s) := effects_execLine

/-! ### Atomics and locks -/

theorem view_atomicStore (s : State) (pa : PAddr) (n : Nat) (v : Vec) : (s.atomicStore pa n v).view = s.view :=
  view_of_withoutMemory (withoutMemory_atomicStore s pa n v)

theorem effect_fetchAndOp {pc : Word} {ra : Reg} {pa : PAddr} {n : Nat} {op : AtomicOp} {inco : Bool}
    (hr : c.destR = some ra) : Effect c s (s.fetchAndOp pc ra pa n op inco) := by
  have hw (v : Vec) (x : Word) : Writes c s (((s.loadPhys pa n false).2.atomicStore pa n v).writeReg ra x) :=
    (writes_writeReg ra x hr).of_view ((view_atomicStore _ _ _ _).trans (view_loadPhys s pa n false))
  unfold State.fetchAndOp
  dsimp only
  split
  · exact (hw _ _).toFrame.advance.entered (entered_raiseArith _ _ _ _)
  · exact (hw _ _).advance

theorem effects_fetchAndOp {q : MemReq} {pc : Word} {ra : Reg} {n : Nat} {op : AtomicOp} {inco : Bool}
    (hr : c.destR = some ra) : Effects c s ((s.check q).andThen fun pa t => t.fetchAndOp pc ra pa n op inco) :=
  effects_andThen (check_sound s q) fun _ _ ht => (effect_fetchAndOp hr).of_view ht

theorem effects_execAtomic {ra : Reg} {va : Word} {n : Nat} {op : AtomicOp} (hr : c.destR = some ra) :
    Effects c s (s.execAtomic ra va n op) := effects_atDecode (effects_fetchAndOp hr)

theorem effects_execPriAtomic {ra rb : Reg} {d : BitVec 12} {n : Nat} {op : AtomicOp} (hr : c.destR = some ra) :
    Effects c s (s.execPriAtomic ra rb d n op) := effects_atDecode (effects_fetchAndOp hr)

/-- The lock takes the size of a word or a long. -/
theorem Frame.setLock {u : State} {n : Nat} (h : Frame c s u) (hn : n = 4 ∨ n = 8) (pa : PAddr) :
    Frame c s (u.setLock pa n) :=
  ⟨h.gpr, h.sr, h.vr, h.fpcr, fun hs => by
    obtain ⟨hf, hb, he, hk, -⟩ := h.fields hs
    exact ⟨hf, hb, he, hk, hn⟩⟩

theorem effects_execLockLoad {ra : Reg} {va : Word} {n : Nat} (hr : c.destR = some ra) (hn : n = 4 ∨ n = 8) :
    Effects c s (s.execLockLoad ra va n) := by
  refine effects_atDecode (effects_andThen (check_sound s _) fun pa t ht => ?_)
  have hw := (writes_writeReg (c := c) ra (extendBySize n ((t.loadPhys pa n false).1.extractLsb' 0 64)) hr).of_view
    ((view_loadPhys t pa n false).trans ht)
  exact Writes.advance ⟨hw.toFrame.setLock hn pa, hw.pc⟩

theorem effects_lockStoreAt {va : Word} {pa : PAddr} {n : Nat} {v : Word} {ok : Bool} :
    Effects c s (s.lockStoreAt va pa n v ok) := by
  refine effects_andThen (accessCheck_sound s _ pa) fun p t ht => ?_
  have hv : (if ok then t.storePhys p n (v.setWidth 256) false else t).view = s.view := by
    split
    · exact (view_storePhys t _ _ _ _).trans ht
    · exact ht
  exact effect_advance (u := State.endLock _ ok) hv

theorem effects_execLockStore {ra : Reg} {va : Word} {n : Nat} : Effects c s (s.execLockStore ra va n) := by
  have hs := translate_sound s (s.lockReq va n true .free)
  refine effects_atDecode ?_
  split
  · exact effects_next (addressCheck_entered ‹_›).effect
  · split
    · rename_i pa t ht
      rw [ht] at hs
      exact fun u hu => (effects_lockStoreAt u hu).of_view (s := s) hs
    · rename_i t ht
      rw [ht] at hs
      exact effects_next (Entered.effect hs)
    · exact fun t ht => by cases ht

theorem effects_execRdF {ra : Reg} (hr : c.destR = some ra) : Effects c s (execRdF ra s) :=
  effects_orNull (effects_atDecode (effects_next (writes_writeReg ra _ hr).advance))

theorem effects_execWrF {ra : Reg} : Effects c s (execWrF ra s) := by
  unfold execWrF
  exact effects_atDecode (effects_next (effect_advance rfl))

/-! ### Transfers -/

/-- A transfer whose target match is made. -/
theorem effect_atTarget {t : Word} {go : State → State} (h : ∀ u, u.view = s.view → Effect c s (go u)) :
    Effect c s (s.atTarget t go) := by
  obtain ⟨u, hu, ha⟩ := atTarget_cases s t go
  have hv : u.view = s.view := by obtain rfl | rfl := hu <;> rfl
  obtain ha | ha := ha <;> rw [ha]
  · exact ((entered_raiseIdaMatch u t).of_view hv).effect
  · exact h u hv

theorem effect_linkTo {u : State} {ra : Reg} {l t : Word} (hr : c.destR = some ra) (hu : u.view = s.view) :
    Effect c s ((u.writeReg ra l).transferTo t) := ((writes_writeReg ra l hr).of_view hu).transferTo t

theorem effects_execJump {ra rb : Reg} (hr : c.destR = some ra) : Effects c s (s.execJump ra rb) := by
  unfold State.execJump
  refine effects_atDecode (effects_next ?_)
  split
  · exact (entered_raiseBadIva _ _).effect
  · exact effect_atTarget fun u hu => effect_linkTo hr hu

theorem effects_execLinkBranch {ra : Reg} {d : BitVec 21} (hr : c.destR = some ra) :
    Effects c s (s.execLinkBranch ra d) := by
  unfold State.execLinkBranch
  exact effects_atDecode (effects_next (effect_atTarget fun _ hu => effect_linkTo hr hu))

theorem effect_fallThrough {u : State} (hu : u.view = s.view) : Effect c s u.fallThrough :=
  effect_advance (u := u.breakLock) hu

/-- Leaving for a target, or going on, with lock_valid cleared. -/
theorem effect_branch {u : State} {p : Prop} [Decidable p] {t : Word} (hu : u.view = s.view) :
    Effect c s (if p then u.transferTo t else u.fallThrough) := by
  split
  · exact (Writes.of_same hu).transferTo t
  · exact effect_fallThrough hu

theorem effects_execCondBranch {taken : Bool} {d : BitVec 21} : Effects c s (s.execCondBranch taken d) := by
  unfold State.execCondBranch
  refine effects_atDecode (effects_next ?_)
  split
  · exact effect_atTarget fun u hu => (Writes.of_same hu).transferTo _
  · exact effect_fallThrough rfl

theorem effects_execFpBranch {fa : Reg} {taken : Word → Bool} {d : BitVec 21} :
    Effects c s (s.execFpBranch fa taken d) := by
  unfold State.execFpBranch
  exact effects_atDecode (effects_next (effect_branch (useF_view s fa _)))

/-! ### Operate instructions -/

theorem effects_execOperate {rc : Reg} {v : Word} {trap : Bool} (hr : c.destR = some rc) :
    Effects c s (s.execOperate rc v trap) := by
  have hw : Writes c s (s.writeReg rc v) := writes_writeReg rc v hr
  refine effects_orNull (effects_atDecode (effects_next ?_))
  split
  · exact hw.toFrame.advance.entered (entered_raiseArith _ _ _ _)
  · exact hw.advance

theorem effects_writeReg {ill : Option Bool} {u : State} {ra : Reg} {v : Word} (hr : c.destR = some ra)
    (hu : u.view = s.view) : Effects c s (s.atDecode ill .int (.next (u.writeReg ra v).advance)) :=
  effects_atDecode (effects_next ((writes_writeReg ra v hr).of_view hu).advance)

theorem effects_execToF {fc : Reg} {v : Word} {k : DataKind} (hr : c.destF = some fc) :
    Effects c s (s.execToF fc v k) :=
  effects_orNull (effects_atDecode (effects_next (writes_writeF fc v k hr).advance))

theorem effects_execToV {fc : Reg} {v : Vec} {k : DataKind} (hr : c.destF = some fc) :
    Effects c s (s.execToV fc v k) :=
  effects_orNull (effects_atDecode (effects_next (writes_writeV fc v k hr).advance))

theorem effects_execFToR {fa rc : Reg} {k : DataKind} {conv : Word → Word} (hr : c.destR = some rc) :
    Effects c s (s.execFToR fa rc k conv) :=
  effects_orNull (effects_atDecode (effects_next ((writes_writeReg rc _ hr).of_view (useF_view s fa k)).advance))

theorem effects_execFimovs {fa rc : Reg} (hr : c.destR = some rc) : Effects c s (execFimovs fa rc s) :=
  effects_execFToR hr

theorem effects_execFimovd {fa rc : Reg} (hr : c.destR = some rc) : Effects c s (execFimovd fa rc s) :=
  effects_execFToR hr

theorem effects_execVinsw {fa fb : Reg} {idx : BitVec 3} {fc : Reg} (hr : c.destF = some fc) :
    Effects c s (execVinsw fa fb idx fc s) :=
  effects_orNull (effects_atDecode (effects_next
    ((writes_writeV fc _ _ hr).of_view ((useV_view _ fb _).trans (useF_view s fa _))).advance))

theorem effects_execVextf {fa : Reg} {idx : BitVec 2} {fc : Reg} (hr : c.destF = some fc) :
    Effects c s (execVextf fa idx fc s) :=
  effects_orNull (effects_atDecode (effects_next (writes_writeF fc _ _ hr).advance))

theorem effects_execVextw {fa : Reg} {idx : BitVec 3} {fc : Reg} (hr : c.destF = some fc) :
    Effects c s (execVextw fa idx fc s) :=
  effects_orNull (effects_atDecode (effects_next
    ((writes_writeF (s := State.drawn _) fc _ _ hr).of_view (useV_view s fa _)).advance))

/-! ### FPCR -/

/-- FPCR's reserved bits and SUM are 0 (R191, R194, R195). -/
def fpcrClean (f : Word) : Prop := f &&& ~~~(fpcrMask ||| 3) = 0

theorem fpcrClean_or {f g : Word} (hf : fpcrClean f) (hg : fpcrClean g) : fpcrClean (f ||| g) := by
  unfold fpcrClean at *
  rw [BitVec.and_comm, BitVec.and_or_distrib_left, BitVec.and_comm, hf, BitVec.and_comm, hg]
  rfl

/-- The flags of an element lie in FPCR's written bits. -/
theorem fpcrClean_bitsAt (x : FpFlags) (e : Fin 4) : fpcrClean (x.bitsAt (fpcrGroup e.val)) := by
  unfold fpcrClean
  obtain ⟨inv, ovf, unf, ine⟩ := x
  revert inv ovf unf ine e
  decide

theorem fpcrClean_groupBits (x0 x1 x2 x3 : FpFlags) : fpcrClean (groupBits fpcrGroup x0 x1 x2 x3) :=
  fpcrClean_or (fpcrClean_or (fpcrClean_or (fpcrClean_bitsAt x0 0) (fpcrClean_bitsAt x1 1)) (fpcrClean_bitsAt x2 2))
    (fpcrClean_bitsAt x3 3)

theorem fpcrClean_and {f : Word} (h : fpcrClean f) (g : Word) : fpcrClean (g &&& f) := by
  unfold fpcrClean at *
  rw [BitVec.and_assoc, h]
  exact BitVec.and_zero

theorem fpcrClean_fpcrWrite (f d : Word) : fpcrClean (fpcrWrite f d) :=
  fpcrClean_or (fpcrClean_and (f := 3) (by unfold fpcrClean; decide) f)
    (fpcrClean_and (f := fpcrMask) (by unfold fpcrClean; decide) d)

theorem fpcrClean_fpcrSetExcCtl {f : Word} (n : BitVec 2) (h : fpcrClean f) : fpcrClean (fpcrSetExcCtl f n) := by
  have hn : fpcrClean (n.setWidth 64) := by
    unfold fpcrClean
    revert n
    decide
  refine fpcrClean_or ?_ hn
  rw [BitVec.and_comm]
  exact fpcrClean_and h _

/-- A state that differs in FPCR only. -/
theorem writes_fpcr {u : State} {f : Word} (hc : c.fpcr = true) (hu : u.view = s.view)
    (hf : fpcrClean s.fpcr → fpcrClean f) : Writes c s { u with fpcr := f } := by
  have h : Writes c s u := .of_same hu
  exact ⟨⟨h.gpr, h.sr, h.vr, fun hn => absurd (hc.symm.trans hn) (by decide), fun hs => ⟨hf hs.1, (h.fields hs).2⟩⟩, h.pc⟩

theorem effects_execWfpcr {fa : Reg} (hc : c.fpcr = true) : Effects c s (execWfpcr fa s) := by
  unfold execWfpcr
  exact effects_atDecode (effects_next
    (writes_fpcr hc (useF_view s fa .integer) fun _ => fpcrClean_fpcrWrite _ _).advance)

theorem effects_execSetfpec {n : BitVec 2} (hc : c.fpcr = true) : Effects c s (s.execSetfpec n) :=
  effects_atDecode (effects_next (writes_fpcr hc rfl (fpcrClean_fpcrSetExcCtl n)).advance)

/-- The flags of an addition set in FPCR, before its result is written. -/
theorem writes_orFpcr {u : State} {bits : Word} (hc : c.fpcr = true) (hu : u.view = s.view) (hb : fpcrClean bits) :
    Writes c s (u.orFpcr bits).drawn := by
  have hr := registers_of_view hu
  simp only [State.registers, Prod.mk.injEq] at hr
  obtain ⟨-, -, -, -, hf, -⟩ := hr
  have h := writes_fpcr (c := c) (f := u.fpcr ||| bits) hc hu fun hs => fpcrClean_or (hf ▸ hs) hb
  exact ⟨h.toFrame.next rfl id, h.pc⟩

/-- What is written after FPCR: the two frames joined. -/
theorem Writes.then_vr {u t : State} (h : Writes c s u) (hc : c.fpcr = true) (ht : Writes c u t) (hg : t.gpr = u.gpr)
    (hsr : t.sr = u.sr) : Writes c s t :=
  ⟨⟨fun k hk => by rw [hg]; exact h.gpr k hk, fun k hk h9 => by rw [hsr]; exact h.sr k hk h9,
      fun k hk => ⟨(ht.vr k hk).1.trans (h.vr k hk).1, (ht.vr k hk).2.trans (h.vr k hk).2⟩,
      fun hn => absurd (hc.symm.trans hn) (by decide), fun hs => ht.fields (h.fields hs)⟩, ht.pc.trans h.pc⟩

theorem effect_finishScalar {u : State} {fc : Reg} {mixed : Bool} {o : FpOutcome} (hd : c.destF = some fc)
    (hc : c.fpcr = true) (hu : u.view = s.view) : Effect c s (u.finishScalar fc mixed o) := by
  have hw (x : Word) : Writes c s (((u.orFpcr (o.flags.bitsAt (fpcrGroup 0))).drawn).writeF fc x .double) :=
    (writes_orFpcr hc hu (fpcrClean_bitsAt _ 0)).then_vr hc (writes_writeF fc x _ hd) (by simp) (by simp)
  unfold State.finishScalar
  dsimp only
  split
  · exact (hw _).toFrame.advance.entered (entered_raiseArith _ _ _ _)
  · exact (hw _).advance

theorem effect_finishVector {u : State} {fc : Reg} {mixed : Bool} {o0 o1 o2 o3 : FpOutcome} (hd : c.destF = some fc)
    (hc : c.fpcr = true) (hu : u.view = s.view) : Effect c s (u.finishVector fc mixed o0 o1 o2 o3) := by
  have hw (x : Vec) : Writes c s
      (((u.orFpcr (groupBits fpcrGroup o0.flags o1.flags o2.flags o3.flags)).drawn).writeV fc x .double) :=
    (writes_orFpcr hc hu (fpcrClean_groupBits _ _ _ _)).then_vr hc (writes_writeV fc x _ hd) (by simp) (by simp)
  unfold State.finishVector
  dsimp only
  split
  · exact (hw _).toFrame.advance.entered (entered_raiseArith _ _ _ _)
  · exact (hw _).advance

theorem view_twoOperands (s : State) (fa fb : Reg) (k : DataKind) :
    ((s.useV fa k).2.useV fb k).2.drawn.view = s.view := (useV_view _ fb k).trans (useV_view s fa k)

theorem effects_execFaddd {fa fb fc : Reg} (hd : c.destF = some fc) (hc : c.fpcr = true) :
    Effects c s (execFaddd fa fb fc s) := by
  unfold execFaddd
  exact effects_orNull (effects_atDecode (effects_next (effect_finishScalar hd hc (view_twoOperands s fa fb _))))

theorem effects_execVaddd {fa fb fc : Reg} (hd : c.destF = some fc) (hc : c.fpcr = true) :
    Effects c s (execVaddd fa fb fc s) := by
  unfold execVaddd
  exact effects_orNull (effects_atDecode (effects_next (effect_finishVector hd hc (view_twoOperands s fa fb _))))

/-! ### SYS_CALL and the privileged instructions -/

theorem sysLevel_pos (fn : BitVec 25) : 1 ≤ (sysLevel fn).toNat := by
  unfold sysLevel
  split <;> decide

/-- A level from 1 to 3 and a code of six bits make an entry offset (R383). -/
theorem entryOffset_level (level : BitVec 2) (code : BitVec 6) (h : 1 ≤ level.toNat) :
    EntryOffset ((0 : BitVec 1) ++ level ++ code ++ (0 : BitVec 7)) := by
  unfold EntryOffset
  revert level code
  decide

/-- SYS_CALL taken: SR23 and the pc. -/
theorem frame_enterSysCall (fn : BitVec 25) (hc : c.sysCall = true) : Frame c s (s.enterSysCall fn) :=
  ⟨fun _ _ => rfl, fun k _ h9 => Vector.getElem_set_ne (by decide) _ fun h => h9 hc (Fin.ext h.symm),
    fun _ _ => ⟨rfl, rfl⟩, fun _ => rfl, id⟩

theorem atEntry_enterSysCall (s : State) (fn : BitVec 25) : (s.enterSysCall fn).atEntry :=
  ⟨_, entryOffset_level _ _ (sysLevel_pos fn), rfl⟩

theorem effect_enterSysCall (fn : BitVec 25) (hc : c.sysCall = true) : Effect c s (s.enterSysCall fn) :=
  ⟨frame_enterSysCall fn hc, fun _ => .inr (atEntry_enterSysCall s fn)⟩

/-- SYS_CALL/b may record EXC_PC as well. -/
theorem effect_enterSysCallB (fn : BitVec 25) (hc : c.sysCall = true) : Effect c s (s.enterSysCallB fn) := by
  have h := effect_enterSysCall (s := s) fn hc
  unfold State.enterSysCallB
  dsimp only
  split
  · refine ⟨h.toFrame.next rfl fun hu => ?_, fun _ => .inr (atEntry_enterSysCall s fn)⟩
    obtain ⟨hf, hb, -, hk, hl⟩ := hu
    exact ⟨hf, hb, sext53_sext53 _, hk, hl⟩
  · exact h

theorem effects_execSys {fn : BitVec 25} {t : State} (h : Effect c s t) : Effects c s (s.execSys fn t) := by
  refine effects_atDecode (effects_next ?_)
  split
  · exact effect_advance rfl
  · exact h

theorem effects_priReturn {ill : Option Bool} {u : State} {ra : Reg} {t : Word} (hc : c.priRet = true)
    (hu : u.view = s.view) : Effects c s (s.atDecode ill .int (.next (u.priReturn ra t))) := by
  have h : Writes c s u := .of_same hu
  exact effects_atDecode (effects_next ⟨h.toFrame.next rfl id, fun hn => absurd (hc.symm.trans hn) (by decide)⟩)

theorem csrRead_view (s : State) (k : Csr) : (s.csrRead k).2.view = s.view := by
  unfold State.csrRead
  split
  · rfl
  · split <;> rfl

/-- A CSR write keeps the kinds of data and the addresses recorded; of PRI_BASE it writes bits [46:16] (R102). -/
theorem csrWrite_place {s t : State} {k : Csr} {d : Word} (h : s.csrWrite k d = .next t) :
    t.kinds = s.kinds ∧ t.place = s.place ∧
      (t.ibox.priBase = s.ibox.priBase ∨ t.ibox.priBase = d &&& 0x00007FFFFFFF0000) := by
  cases k <;> simp only [State.csrWrite] at h
  case priBase => cases h; exact ⟨rfl, rfl, .inr rfl⟩
  case itbPte => cases h; unfold State.itbFill; dsimp only; split <;> exact ⟨rfl, rfl, .inl rfl⟩
  case dtbPte =>
    cases h; unfold State.dtbFill; dsimp only; split <;> (try split) <;> exact ⟨rfl, rfl, .inl rfl⟩
  case softErr => cases h; split <;> exact ⟨rfl, rfl, .inl rfl⟩
  case hardErr => cases h; split <;> exact ⟨rfl, rfl, .inl rfl⟩
  case dcCtl => split at h <;> cases h; exact ⟨rfl, rfl, .inl rfl⟩
  case scCtl => split at h <;> cases h; exact ⟨rfl, rfl, .inl rfl⟩
  case intReq =>
    cases h; unfold State.writeIntReq; dsimp only; split <;> (try split) <;> exact ⟨rfl, rfl, .inl rfl⟩
  all_goals cases h; exact ⟨rfl, rfl, .inl rfl⟩

theorem writes_csrWrite {s t : State} {k : Csr} {d : Word} (h : s.csrWrite k d = .next t) : Writes c s t := by
  obtain ⟨hg, hs, hv, hf, -, hl, -, hpc⟩ := csrWrite_frame h
  obtain ⟨hk, hp, hb⟩ := csrWrite_place h
  simp only [State.place, Prod.mk.injEq] at hp
  obtain ⟨-, he, hsl⟩ := hp
  refine ⟨⟨fun _ _ => by rw [hg], fun _ _ _ => by rw [hs], fun _ _ => by rw [hv, hk]; exact ⟨rfl, rfl⟩, fun _ => hf,
    fun ⟨hsf, hsb, hse, hsk, hsz⟩ => ⟨by rw [hf]; exact hsf, ?_, by rw [he]; exact hse, by rw [hsl]; exact hsk,
      by rw [hl]; exact hsz⟩⟩, hpc⟩
  obtain hb | hb := hb <;> rw [hb]
  · exact hsb
  · rw [BitVec.and_assoc]
    exact BitVec.and_zero

/-- PRI_WCSR writes from the state that has advanced. -/
theorem effects_execPriWcsr {ra : Reg} {idx : BitVec 8} : Effects c s (execPriWcsr ra idx s) :=
  effects_atDecode fun t ht =>
    have hw : Writes c s.advance t := writes_csrWrite ht
    ⟨hw.toFrame.of_advance, fun _ => .inl ((mode_congr hw.pc).trans (mode_advance s))⟩

theorem effects_execPriRcsr {ra : Reg} {idx : BitVec 8} (hr : c.destR = some ra) : Effects c s (execPriRcsr ra idx s) := by
  unfold execPriRcsr
  exact effects_writeReg hr (csrRead_view s _)

/-! ### Barriers, reads, HALT -/

theorem effects_execMemb : Effects c s (execMemb s) :=
  effects_atDecode (effects_next (effect_advance (u := s.memoryBarrier) rfl))

theorem effects_execImemb : Effects c s (execImemb s) :=
  effects_atDecode (effects_next (effect_advance (u := s.fetchBarrier) rfl))

theorem effects_execRead {ra : Reg} {v : Word} (hr : c.destR = some ra) : Effects c s (s.execRead ra v) :=
  effects_writeReg hr rfl

theorem effects_execHalt : Effects c s (execHalt s) := by
  refine effects_atDecode (effects_next ?_)
  split
  · exact effect_advance rfl
  · exact effect_advance (u := { s with coreState := .halted }) rfl

end

/-! ## Every instruction -/

/-- The effect of every instruction: it writes the registers in its scope, goes on in its mode or to an entry unless it is
a PRI_RET, and keeps the fields the spec fixes. -/
theorem exec_effect {i : Instr} {s t : State} (h : exec i s = .next t) : Effect (Instr.scope i) s t := by
  revert t
  show Effects (Instr.scope i) s (exec i s)
  cases i with
  | addw | addwL | subw | subwL | addl | addlL | subl | sublL | mulw | mulwL | mull | mullL | umulh | umulhL
  | cmpeq | cmpeqL | cmplt | cmpltL | cmple | cmpleL | cmpult | cmpultL | cmpule | cmpuleL | and | andL | bic | bicL
  | bis | bisL | ornot | ornotL | xor | xorL | eqv | eqvL | ldi | ldih => exact effects_execOperate rfl
  | ldbu | ldhu | ldw | ldl | ldlU | ldwNc | ldlNc => exact effects_execIntLoad rfl
  | flds | fldd | lddNc => exact effects_execFloatLoad rfl
  | ldwe | ldse | ldde | vlds | vldd | vldwU | vldsU | vlddU | vlddNc => exact effects_execVecLoad rfl
  | stb | sth | stw | stl | stwNc | stlNc => exact effects_execIntStore
  | stlU => exact effects_execStlU
  | fsts | fstd | stdNc => exact effects_execFloatStore
  | vsts | vstd | vstwU | vstsU | vstdU | vstdNc => exact effects_execVecStore
  | vstwUl | vstsUl | vstdUl => exact effects_execStoreLow
  | vstwUh | vstsUh | vstdUh => exact effects_execStoreHigh
  | fetchd => exact effects_execFetchd
  | fetchdE => exact effects_execFetchdE
  | flushd | evictdl | evictdg => exact effects_execLine
  | ldwInc | ldlInc | ldwDec | ldlDec | ldwSet | ldlSet => exact effects_execAtomic rfl
  | priLdwIncP | priLdlIncP | priLdwDecP | priLdlDecP | priLdwSetP | priLdlSetP => exact effects_execPriAtomic rfl
  | priLdwP | priLdlP | priLdwV | priLdlV | priLdwVpte | priLdlVpte => exact effects_execPriLoad rfl
  | priStwP | priStlP | priStwV | priStlV => exact effects_execPriStore
  | lldw => exact effects_execLockLoad rfl (.inl rfl)
  | lldl => exact effects_execLockLoad rfl (.inr rfl)
  | lstw | lstl => exact effects_execLockStore
  | rdF => exact effects_execRdF rfl
  | wrF => exact effects_execWrF
  | call | ret | jmp => exact effects_execJump rfl
  | br | bsr => exact effects_execLinkBranch rfl
  | beq | bne | blt | ble | bgt | bge | blbc | blbs => exact effects_execCondBranch
  | fbeq | fbne | fblt | fble | fbgt | fbge => exact effects_execFpBranch
  | ifmovs | ifmovd | rfpcr => exact effects_execToF rfl
  | fimovs => exact effects_execFimovs rfl
  | fimovd => exact effects_execFimovd rfl
  | vinsf | vcpyf => exact effects_execToV rfl
  | vinsw => exact effects_execVinsw rfl
  | vextf => exact effects_execVextf rfl
  | vextw => exact effects_execVextw rfl
  | faddd => exact effects_execFaddd rfl rfl
  | vaddd => exact effects_execVaddd rfl rfl
  | wfpcr => exact effects_execWfpcr rfl
  | setfpec0 | setfpec1 | setfpec2 | setfpec3 => exact effects_execSetfpec rfl
  | memb => exact effects_execMemb
  | imemb => exact effects_execImemb
  | rtc | rcid | rtid => exact effects_execRead rfl
  | halt => exact effects_execHalt
  | nop => exact effects_execNull
  | sysCall fn => exact effects_execSys (effect_enterSysCall fn rfl)
  | sysCallB fn => exact effects_execSys (effect_enterSysCallB fn rfl)
  | priRet | priRetB => exact effects_priReturn rfl rfl
  | priRcsr => exact effects_execPriRcsr rfl
  | priWcsr => exact effects_execPriWcsr

end Sys2Proof.Machine
end

section
/-! What a step does to the mode and to the fields the spec fixes: instructions, interrupts, fetches, time, and every event
of the environment. -/

namespace Sys2Proof.Machine

/-! ## Time and late errors -/

theorem view_countPc0 (s : State) (n : Nat) : (s.countPc0 n).view = s.view := by
  unfold State.countPc0
  dsimp only
  split <;> rfl

theorem view_countPc1 (s : State) (n : Nat) : (s.countPc1 n).view = s.view := by
  unfold State.countPc1
  dsimp only
  split <;> rfl

theorem view_countEvents (s : State) (m : BitVec 2) (c : EventClass) (r : Bool) :
    (s.countEvents m c r).view = s.view := by
  have second (t : State) (n : Nat) : (if t.counting true m then (t.countPc1 n).drawn else t).view = t.view := by
    split
    · exact view_countPc1 t n
    · rfl
  unfold State.countEvents
  dsimp only
  refine (second _ _).trans ?_
  split
  · exact view_countPc0 s _
  · rfl

theorem view_tickTc (s : State) (n : Nat) : (s.tickTc n).view = s.view := by
  unfold State.tickTc
  split <;> rfl

theorem view_tickTimer (s : State) (n : Nat) : (s.tickTimer n).view = s.view := by
  unfold State.tickTimer
  dsimp only
  repeat' split
  all_goals rfl

theorem view_tickHserr (s : State) (n : Nat) : (s.tickHserr n).view = s.view := by
  unfold State.tickHserr
  split <;> rfl

theorem view_clockTick (s : State) : s.clockTick.view = s.view :=
  (view_tickHserr _ _).trans ((view_tickTimer _ _).trans (view_tickTc s.drawn _))

theorem view_idle (s : State) (m : BitVec 2) : (s.idle m).view = s.view :=
  (view_clockTick _).trans (view_countEvents s _ _ _)

theorem view_finish (i : Instr) (s t : State) : (finish i s t).view = t.view :=
  (view_clockTick _).trans (view_countEvents t _ _ _)

theorem view_reportOrWait (s : State) (b : BitVec 5) : (s.reportOrWait b).view = s.view := by
  unfold State.reportOrWait
  split
  · exact view_scError s.drawn _
  · rfl

theorem view_reportLate (s : State) : s.reportLate.view = s.view := by
  have all (bs : List (BitVec 5)) (t : State) : (bs.foldl State.reportOrWait t).view = t.view := by
    induction bs generalizing t with
    | nil => rfl
    | cons b bs ih => exact (ih _).trans (view_reportOrWait t b)
  unfold State.reportLate
  split
  · rfl
  · exact all _ { s with lateErrors := [] }

/-! ## Fetch -/

/-- A fetch gives a word with nothing in view changed, takes an exception, or leaves the substitute instruction to run with
EXC_PC recorded or kept. -/
def Fetched.Sound (s : State) : Fetched → Prop
  | .word t => t.view = s.view
  | .trap t => Entered s t
  | .substitute t => t.registers = s.registers ∧ t.pc = s.pc ∧ (s.fieldsOk → t.fieldsOk)

theorem Fetched.Sound.of_view {s u : State} {f : Fetched} (h : f.Sound u) (hv : u.view = s.view) : f.Sound s := by
  cases f with
  | word t => exact Eq.trans h hv
  | trap t => exact Entered.of_view h hv
  | substitute t =>
    obtain ⟨hr, hp, hf⟩ := h
    exact ⟨hr.trans (registers_of_view hv), hp.trans (pc_of_view hv), fun hs => hf (fieldsOk_of_view hv hs)⟩

theorem fetchError_sound (s : State) (i : Nat) : (s.fetchError i).Sound s := by
  unfold State.fetchError
  dsimp only
  split
  · exact (entered_enterInterrupt _ _).of_view rfl
  · refine ⟨rfl, rfl, fun ⟨hf, hb, he, hk, hl⟩ => ⟨hf, hb, ?_, hk, hl⟩⟩
    dsimp only
    split
    · exact sext53_sext53 _
    · exact he

theorem view_fetchWord (s : State) (l : Option ICacheLine) (p : PAddr) : (s.fetchWord l p).2.view = s.view := by
  unfold State.fetchWord
  dsimp only
  split
  · split <;> rfl
  · dsimp only
    split <;> rfl

theorem fetchPair_sound (s : State) (l : Option ICacheLine) (p : PAddr) : (s.fetchPair l p).Sound s :=
  (view_fetchWord _ l (p ^^^ 4)).trans (view_fetchWord s l p)

theorem view_icacheInsert (s : State) (l : ICacheLine) : (s.icacheInsert l).view = s.view := by
  unfold State.icacheInsert
  dsimp only
  split <;> rfl

theorem view_icacheFill (s : State) (e : Option ItbEntry) (p : PAddr) : (s.icacheFill e p).view = s.view := by
  unfold State.icacheFill
  split
  · rfl
  · dsimp only
    refine (view_icacheInsert _ _).trans ?_
    split <;> rfl

theorem fetchMemory_sound (s : State) (e : Option ItbEntry) (p : PAddr) : (s.fetchMemory e p).Sound s := by
  have fills {t : State} (ht : t.view = s.view) : ((t.icacheFill e p).fetchPair none p).Sound s :=
    (fetchPair_sound _ none p).of_view ((view_icacheFill t e p).trans ht)
  unfold State.fetchMemory
  dsimp only
  split
  · exact fetchError_sound s 1
  · split
    · split
      · exact fills rfl
      · split
        · exact (fetchError_sound _ 5).of_view ((view_icacheFill _ e p).trans (view_scError _ 12))
        · exact fills rfl
    · split
      · exact (fetchError_sound _ 0).of_view rfl
      · exact (fetchPair_sound _ none p).of_view rfl
    · exact fills rfl

theorem fetchMiss_sound (s : State) : s.fetchMiss.Sound s := by
  unfold State.fetchMiss
  split
  · exact fetchMemory_sound s _ _
  · split
    · exact fetchMemory_sound s _ _
    · exact entered_raiseItbAccess s
    · exact entered_raiseItbMiss s

theorem fetchFrom_sound (ls : List ICacheLine) (s : State) : (fetchFrom ls s).Sound s := by
  induction ls generalizing s with
  | nil => exact fetchMiss_sound s
  | cons l ls ih =>
    unfold fetchFrom
    split
    · exact fetchPair_sound s _ _
    · split
      · exact (fetchPair_sound s.drawn _ _).of_view rfl
      · exact (ih _).of_view rfl

theorem view_icParityError (s : State) (i : Nat) (x : BitVec 6) : (s.icParityError i x).view = s.view :=
  view_countCorrected _

theorem view_icacheChecked (s : State) : s.icacheChecked.view = s.view := by
  unfold State.icacheChecked
  split
  · exact view_icParityError s _ _
  · split
    · exact view_icParityError s _ _
    · rfl

theorem view_icacheAged (s : State) : s.icacheAged.view = s.view := by
  unfold State.icacheAged
  split <;> rfl

theorem fetch_sound (s : State) : s.fetch.Sound s := by
  unfold State.fetch
  split
  · exact (entered_raiseBadFetch s).view rfl
  · exact (fetchFrom_sound _ _).of_view ((view_icacheChecked _).trans (view_icacheAged _))

/-! ## What a step keeps -/

/-- The fixed fields are kept; outside HM the mode is kept too, or an entry is reached. -/
structure Sound (s t : State) : Prop where
  fields : s.fieldsOk → t.fieldsOk
  leads : s.mode ≠ .hm → s.LeadsTo t

theorem leadsTo_of_view {s t u : State} (h : s.LeadsTo u) (hv : t.view = u.view) : s.LeadsTo t := by
  refine h.imp (fun hm => (mode_congr (pc_of_view hv)).trans hm) fun ⟨off, ho, hp⟩ => ⟨off, ho, ?_⟩
  have hr := registers_of_view hv
  simp only [State.registers, Prod.mk.injEq] at hr
  obtain ⟨-, -, -, -, -, -, hb, -⟩ := hr
  rw [pc_of_view hv, hb, hp]

section
variable {s t u : State}

/-- Nothing in view changes before. -/
theorem Sound.of_view (h : Sound u t) (hv : u.view = s.view) : Sound s t := by
  have hm := mode_congr (pc_of_view hv)
  exact ⟨fun hs => h.fields (fieldsOk_of_view hv hs), fun hs => (h.leads (hm ▸ hs)).imp_left fun h => h.trans hm⟩

/-- Nothing in view changes after. -/
theorem Sound.view (h : Sound s u) (hv : t.view = u.view) : Sound s t :=
  ⟨fun hs => fieldsOk_of_view hv (h.fields hs), fun hs => leadsTo_of_view (h.leads hs) hv⟩

theorem Sound.of_same (hv : t.view = s.view) : Sound s t :=
  ⟨fieldsOk_of_view hv, fun _ => .inl (mode_congr (pc_of_view hv))⟩

theorem Entered.sound (h : Entered s t) : Sound s t := ⟨h.fields, fun _ => .inr h.atEntry⟩

end

/-! ## Instructions -/

/-- Outside HM a PRI_RET is illegal. -/
theorem priRet_entered {i : Instr} {s t : State} (hi : Instr.isPriRet i = true) (hm : s.mode ≠ .hm)
    (h : exec i s = .next t) : Entered s t := by
  have hp : s.privileged = some false := if_neg hm
  cases i with
  | priRet ra =>
    obtain rfl : s.raiseOpcdec false = t := by simpa [exec, execPriRet, hp, State.atDecode] using h
    exact entered_raiseOpcdec s false
  | priRetB ra =>
    obtain rfl : s.raiseOpcdec false = t := by simpa [exec, execPriRetB, hp, State.atDecode] using h
    exact entered_raiseOpcdec s false
  | _ => cases hi

theorem exec_sound {i : Instr} {s t : State} (h : exec i s = .next t) : Sound s t := by
  have he := exec_effect h
  refine ⟨he.fields, fun hm => ?_⟩
  cases hi : Instr.isPriRet i with
  | false => exact he.leads hi
  | true => exact .inr (priRet_entered hi hm h).atEntry

/-! ## The substitute instruction -/

theorem effect_enterSubstitute (s : State) : Effect { sysCall := true } s s.enterSubstitute := by
  have h := effect_enterSysCallB (c := { sysCall := true }) (s := s) 0xBB rfl
  have hb : (s.enterSysCallB 0xBB).ibox.priBase = s.ibox.priBase := by
    unfold State.enterSysCallB
    dsimp only
    split <;> rfl
  unfold State.enterSubstitute
  dsimp only
  split
  · exact ⟨h.toFrame.next rfl id, fun _ => .inr ⟨0x5D80, by unfold EntryOffset; decide, by rw [hb]⟩⟩
  · exact h

theorem runSubstitute_sound (s : State) : Sound s (runSubstitute s) := by
  have h : Sound s (if s.iaMatch then s.raiseIaMatch else s.enterSubstitute) := by
    split
    · exact (entered_raiseIaMatch s).sound
    · exact ⟨(effect_enterSubstitute s).fields, fun _ => (effect_enterSubstitute s).leads rfl⟩
  exact h.view ((view_clockTick _).trans (view_countEvents _ _ _ _))

/-! ## An instruction boundary -/

theorem runOne_sound {s t : State} (h : runOne s = .next t) : Sound s t := by
  have hf := fetch_sound { s with lastExc := none }
  unfold runOne at h
  split at h
  · rename_i u hu
    rw [hu] at hf
    cases h
    exact (Entered.sound (s := s) (Entered.of_view hf rfl)).view (view_idle u _)
  · rename_i u hu
    rw [hu] at hf
    cases h
    obtain ⟨hr, hp, hk⟩ := hf
    have hs := runSubstitute_sound u
    have hm : u.mode = s.mode := mode_congr hp
    exact ⟨fun hs' => hs.fields (hk hs'), fun hn => (hs.leads (hm ▸ hn)).imp_left fun h => h.trans hm⟩
  · rename_i u hu
    rw [hu] at hf
    unfold runFetched at h
    split at h
    · cases h
    · split at h
      · cases h
        exact ((exec_sound ‹_›).view (view_finish _ _ _)).of_view (Eq.trans hf rfl)
      · cases h
      · cases h

theorem boundary_sound {s t : State} (h : boundary s = .next t) : Sound s t := by
  refine Sound.of_view (u := s.reportLate) ?_ (view_reportLate s)
  unfold boundary at h
  dsimp only at h
  split at h
  · cases h
    exact (entered_enterInterrupt _ _).sound.view (view_idle _ _)
  · split at h
    · cases h
      exact .of_same (view_idle _ _)
    · exact runOne_sound h

/-! ## Events -/

theorem view_lineLeaves (s : State) (l : Nat) : (s.lineLeaves l).view = s.view :=
  view_of_withoutMemory (withoutMemory_lineLeaves s l)

theorem view_mailArrives (s : State) (src : BitVec 4) (m : Word) : (s.mailArrives src m).view = s.view := by
  unfold State.mailArrives
  split <;> rfl

theorem view_intReqSent (s : State) : s.intReqSent.view = s.view := by
  unfold State.intReqSent
  split <;> rfl

theorem view_externalRequest (s : State) (n : Nat) : (s.externalRequest n).view = s.view := by
  unfold State.externalRequest
  split
  · split <;> rfl
  · rfl

theorem view_agentStore (s : State) (a : BitVec 46) (b : Byte) : (s.agentStore a b).view = s.view := by
  have h : ((s.lineLeaves (a.toNat / 128)).putDrawn a.toNat 1 (b.setWidth 256)).view = s.view :=
    view_of_withoutMemory ((withoutMemory_putDrawn _ _ _ _).trans (withoutMemory_lineLeaves _ _))
  unfold State.agentStore
  dsimp only
  generalize (s.lineLeaves (a.toNat / 128)).putDrawn a.toNat 1 (b.setWidth 256) = t at h ⊢
  simp only [State.view, State.registers, State.place, Prod.mk.injEq] at h ⊢
  obtain ⟨⟨hg, hs, hv, hk, hf, -, hr⟩, hp⟩ := h
  refine ⟨⟨hg, hs, hv, hk, hf, ?_, hr⟩, hp⟩
  split <;> rfl

theorem view_agentWrites (s : State) (a : BitVec 46) (b : Byte) : (s.agentWrites a b).view = s.view := by
  unfold State.agentWrites
  split
  · rfl
  · split
    · exact view_agentStore s a b
    · exact view_agentStore s.dropDataCache a b

theorem view_loadReplayed (s : State) : s.loadReplayed.view = s.view := view_scError _ 2

theorem view_icCopyError (s : State) (i : BitVec 6) : (s.icCopyError i).view = s.view := by
  unfold State.icCopyError
  split
  · exact view_countCorrected _
  · rfl

theorem view_cellError (s : State) (e : CellError) (b : Bool) : (s.cellError e b).view = s.view := by
  have h (c : Prop) [Decidable c] : (if c then s.lineClean e.line else s).view = s.view := by split <;> rfl
  exact h _

/-- A detected error changes records, memory and what is armed only. -/
theorem view_detect (s : State) (e : HwError) : (s.detect e).view = s.view := by
  cases e with
  | icTagParity i => exact view_icParityError s _ _
  | icDataParity i => exact view_icParityError s _ _
  | icCopyParity i => exact view_icCopyError s i
  | dcDataError c b => exact view_cellError s c b
  | probeError =>
    simp only [State.detect]
    split <;> rfl
  | scError b l =>
    simp only [State.detect]
    split
    · exact view_scError _ _
    · exact view_scError _ _
  | robError | csrIssueError | fetchMemError | fetchAckError | dcTagParity | dataMemError | ioMemError | dataAckError
  | loadReplay => rfl

/-! ## Resets -/

theorem entryOffset_reset : EntryOffset 0x1000 := by
  unfold EntryOffset
  decide

theorem loseRegisters_ibox (s : State) : s.loseRegisters.ibox = s.ibox := by simp only [State.loseRegisters]

theorem loseRegisters_sleepBreak (s : State) : s.loseRegisters.sleepBreak = s.sleepBreak := by
  simp only [State.loseRegisters]

/-- Registers lost in a reset hold any value that the fixed fields allow. -/
theorem fieldsOk_loseRegisters {s : State} (h : s.fieldsOk) : s.loseRegisters.fieldsOk := by
  obtain ⟨-, hb, he, hk, -⟩ := h
  refine ⟨fpcrClean_and (f := 0x7FFF01F001F001F3) (by unfold fpcrClean; decide) _, ?_, ?_, ?_, ?_⟩
  · rw [loseRegisters_ibox]; exact hb
  · rw [loseRegisters_ibox]; exact he
  · rw [loseRegisters_sleepBreak]; exact hk
  · simp only [State.loseRegisters]
    split <;> simp

/-! What a wake-up and a cold reset leave in the fixed fields. -/

theorem wake_sleepBreak (s : State) : s.wake.sleepBreak = s.sleepBreak := by
  simp only [State.wake, State.atResetEntry, State.resetUnits, State.resetList1, State.loseCaches, State.loseRegisters]

theorem wake_excPc (s : State) : s.wake.ibox.excPc = s.sleepBreak := rfl

theorem wake_priBase (s : State) : s.wake.ibox.priBase = s.ibox.priBase := rfl

theorem wake_fpcr (s : State) : s.wake.fpcr = s.loseRegisters.fpcr := rfl

theorem wake_lock (s : State) : s.wake.lock = s.loseRegisters.lock := rfl

theorem wake_atEntry (s : State) : s.wake.atEntry := ⟨_, entryOffset_reset, rfl⟩

theorem cold_sleepBreak (s : State) : s.cold.sleepBreak = s.sleepBreak := by
  simp only [State.cold, State.platformReset, State.atResetEntry, State.resetUnits, State.resetList1, State.loseCaches,
    State.loseRegisters]

theorem cold_excPc (s : State) : s.cold.ibox.excPc = s.ibox.excPc := rfl

theorem cold_priBase (s : State) : s.cold.ibox.priBase = 0 := rfl

theorem cold_fpcr (s : State) : s.cold.fpcr = s.loseRegisters.fpcr := rfl

theorem cold_lock (s : State) : s.cold.lock = s.loseRegisters.lock := rfl

theorem cold_atEntry (s : State) : s.cold.atEntry := ⟨_, entryOffset_reset, rfl⟩

/-- A wake-up: EXC_PC takes the breakpoint of the sleep interrupt. -/
theorem fieldsOk_wake {s : State} (h : s.fieldsOk) : s.wake.fieldsOk := by
  obtain ⟨hf, -, -, -, hl⟩ := fieldsOk_loseRegisters h
  obtain ⟨-, hb, -, hk, -⟩ := h
  rw [State.fieldsOk, wake_fpcr, wake_priBase, wake_excPc, wake_sleepBreak, wake_lock]
  exact ⟨hf, hb, hk, hk, hl⟩

theorem fieldsOk_cold {s : State} (h : s.fieldsOk) : s.cold.fieldsOk := by
  obtain ⟨hf, -, -, -, hl⟩ := fieldsOk_loseRegisters h
  obtain ⟨-, -, he, hk, -⟩ := h
  rw [State.fieldsOk, cold_fpcr, cold_priBase, cold_excPc, cold_sleepBreak, cold_lock]
  exact ⟨hf, rfl, he, hk, hl⟩

theorem wake_sound (s : State) : Sound s s.wake := ⟨fieldsOk_wake, fun _ => .inr (wake_atEntry s)⟩

theorem cold_sound (s : State) : Sound s s.cold := ⟨fieldsOk_cold, fun _ => .inr (cold_atEntry s)⟩

/-- A power-on reset differs from a cold one in memory, TID and the SOFTCSRs. -/
theorem powerOn_sound (s : State) : Sound s s.powerOn :=
  (cold_sound s).view (by simp only [State.powerOn, State.view, State.registers, State.place])

/-- What an event does while the core is awake, and nothing otherwise. -/
theorem sound_ite {s t u : State} {p : Prop} [Decidable p] (h : Sound s t) (hu : Sound s u) :
    Sound s (if p then t else u) := by
  split
  · exact h
  · exact hu

theorem apply_sound (s : State) (e : EnvEvent) : Sound s (s.apply e) := by
  have here : Sound s s := .of_same rfl
  cases e with
  | external n => exact sound_ite (.of_same (view_externalRequest s n)) here
  | interCore0 | interCore1 | mailRequest | sleepInterrupt | sleepEnter => exact sound_ite (.of_same rfl) here
  | mailStored src m => exact .of_same (view_mailArrives s src m)
  | intReqSent => exact .of_same (view_intReqSent s)
  | agentWrite a b => exact .of_same (view_agentWrites s a b)
  | lineReplaced l => exact sound_ite (.of_same (view_lineLeaves s l)) here
  | coreConnection | iorSet | earlyStore => exact .of_same rfl
  | hwError h =>
    cases h with
    | loadReplay => exact sound_ite (.of_same (view_loadReplayed s)) here
    | _ => exact sound_ite (.of_same (view_detect s _)) here
  | wakeUp => exact sound_ite (wake_sound s) here
  | coldReset => exact cold_sound s
  | powerOnReset => exact powerOn_sound s

/-! ## The step -/

theorem view_foretell (s : State) (p : EarlyStore) : (s.foretell p).view = s.view :=
  view_of_withoutMemory (withoutMemory_foretell s p)

/-- Every step keeps the fixed fields, and outside HM the mode, unless it reaches an entry. -/
theorem step_sound {s t : State} (h : step s = .next t) : Sound s t := by
  obtain ⟨p, rest, -, rfl⟩ | ⟨e, rest, -, rfl⟩ | ⟨-, rfl⟩ | h := step_next h
  · exact .of_same (view_foretell { s with inputs := rest } p)
  · exact (apply_sound { s with inputs := rest } e).of_view rfl
  · exact .of_same rfl
  · exact (boundary_sound h).of_view rfl

/-! ## The obligations -/

/-- Settles O55: the fixed fields are part of what every step keeps. -/
theorem stepKeepsFields : Obligations.StepKeepsFields := fun _ _ hs h => (step_sound h).fields hs

/-- Settles O56: a step that does not keep the mode reaches an entry, and every entry is in HM. -/
theorem hmOnlyThroughEntries : Obligations.HmOnlyThroughEntries := by
  intro s t hm h
  refine ((step_sound h).leads hm).imp_right fun he => ⟨he.mode, ?_⟩
  obtain ⟨off, ⟨h0, h1, h2⟩, hp⟩ := he
  exact ⟨off, h0, h1, h2, hp⟩

/-- Settles O57: only a PRI_RET neither keeps the mode nor reaches an entry. -/
theorem onlyPriRetLeavesHm : Obligations.OnlyPriRetLeavesHm := by
  intro s t i hm h hne
  cases i with
  | priRet ra => exact ⟨ra, .inl rfl⟩
  | priRetB ra => exact ⟨ra, .inr rfl⟩
  | _ =>
    obtain hk | he := (exec_effect h).leads rfl
    · exact absurd (hk.trans hm) hne
    · exact absurd he.mode hne

/-- Settles O60: the frame of every instruction's effect. -/
theorem registerFrame : Obligations.RegisterFrame := fun _ _ _ h =>
  have he := exec_effect h
  ⟨he.gpr, he.sr, he.vr, he.fpcr⟩

end Sys2Proof.Machine
end

section
/-! The control and status registers: which index names which register, what a write leaves to read, and what the two
instructions that reach them do in HM. -/

namespace Sys2Proof.Machine

/-! ## The instructions in HM -/

/-- A privileged instruction runs in HM. -/
theorem atDecode_privileged {s : State} (hm : s.mode = .hm) (ha : s.iaMatch = false) (run : Result) :
    s.atDecode s.privileged .int run = run := by
  rw [State.privileged, if_pos hm]
  exact atDecode_run (passes_int ha) run

theorem exec_priWcsr {s : State} (hm : s.mode = .hm) (ha : s.iaMatch = false) (ra : Reg) (idx : BitVec 8) :
    exec (.priWcsr ra idx) s = s.advance.csrWrite (csrOf idx) (s.readReg ra) :=
  atDecode_privileged hm ha _

theorem exec_priRcsr {s : State} (hm : s.mode = .hm) (ha : s.iaMatch = false) (ra : Reg) (idx : BitVec 8) :
    exec (.priRcsr ra idx) s =
      .next ((s.csrRead (csrOf idx)).2.writeReg ra (s.csrRead (csrOf idx)).1).advance :=
  atDecode_privileged hm ha _

theorem csrRead_some {s : State} {c : Csr} {v : Word} (h : s.csrValue c = some v) : s.csrRead c = (v, s) := by
  simp only [State.csrRead, h]

/-- A register whose content is no function of the state costs a free value. -/
theorem csrRead_none {s : State} {c : Csr} (h : s.csrValue c = none) : ∃ v, s.csrRead c = (v, s.drawn) := by
  simp only [State.csrRead, h]
  split <;> exact ⟨_, rfl⟩

theorem exec_priRcsr_some {s : State} (hm : s.mode = .hm) (ha : s.iaMatch = false) (ra : Reg) {idx : BitVec 8}
    {v : Word} (h : s.csrValue (csrOf idx) = some v) : exec (.priRcsr ra idx) s = .next (s.writeReg ra v).advance := by
  rw [exec_priRcsr hm ha, csrRead_some h]

/-! ## Way enables -/

/-- The CSR write that the model refuses (R151, R165; log 32). -/
def badWays (c : Csr) (d : Word) : Prop :=
  (c = .dcCtl ∧ wayLegal (d.extractLsb' 0 4) = false) ∨ (c = .scCtl ∧ wayLegal (d.extractLsb' 0 8) = false)

theorem csrWrite_refused {c : Csr} {d : Word} (h : badWays c d) (s : State) : s.csrWrite c d = .refused .wayEnable := by
  obtain ⟨rfl, h⟩ | ⟨rfl, h⟩ := h <;> simp [State.csrWrite, h]

/-- Every other write answers a next state. -/
theorem csrWrite_completes {c : Csr} {d : Word} (h : ¬badWays c d) (s : State) : ∃ t, s.csrWrite c d = .next t := by
  cases c with
  | dcCtl =>
    have hw : wayLegal (d.extractLsb' 0 4) = true := by simpa [badWays] using h
    exact ⟨_, if_pos hw⟩
  | scCtl =>
    have hw : wayLegal (d.extractLsb' 0 8) = true := by simpa [badWays] using h
    exact ⟨_, if_pos hw⟩
  | _ => exact ⟨_, rfl⟩

theorem wayLegal_four (v : BitVec 4) : wayLegal v = false ↔ v.toNat ∉ [1, 2, 4, 8, 15] := by
  revert v
  decide

theorem wayLegal_eight (v : BitVec 8) : wayLegal v = false ↔ v.toNat ∉ [1, 2, 4, 8, 16, 32, 64, 128, 255] := by
  revert v
  decide

theorem csrOf_eq_dcCtl (idx : BitVec 8) : csrOf idx = .dcCtl ↔ idx = 0x4A := by
  revert idx
  decide

theorem csrOf_eq_scCtl (idx : BitVec 8) : csrOf idx = .scCtl ↔ idx = 0x80 := by
  revert idx
  decide

theorem toNat_extract_low (w : Word) (n : Nat) : (w.extractLsb' 0 n).toNat = w.toNat % 2 ^ n := by
  simp [BitVec.extractLsb'_toNat]

/-- In terms of the index and the datum. -/
theorem badWays_csrOf (idx : BitVec 8) (d : Word) :
    badWays (csrOf idx) d ↔ (idx = 0x4A ∧ d.toNat % 16 ∉ [1, 2, 4, 8, 15]) ∨
      (idx = 0x80 ∧ d.toNat % 256 ∉ [1, 2, 4, 8, 16, 32, 64, 128, 255]) := by
  rw [badWays, csrOf_eq_dcCtl, csrOf_eq_scCtl, wayLegal_four, wayLegal_eight, toNat_extract_low, toNat_extract_low]
  exact Iff.rfl

/-- Settles O20: the frame of a CSR write, and the writes that complete. -/
theorem csrWritesComplete : Obligations.CsrWritesComplete := by
  intro s ra idx hm ha
  rw [exec_priWcsr hm ha, ← badWays_csrOf]
  refine ⟨rfl, fun h => csrWrite_refused h _, fun h => ?_⟩
  obtain ⟨t, ht⟩ := csrWrite_completes h s.advance
  obtain ⟨hg, hs, hv, hf, hmem, hl, -, hpc⟩ := csrWrite_frame ht
  exact ⟨t, ht, hpc, hg, hs, hv, hf, hmem, hl⟩

/-! ## Undefined indices -/

/-- The indices no table defines (R36). -/
theorem csrOf_eq_undefined (idx : BitVec 8) : csrOf idx = .undefined ↔
    idx.toNat ∈ ([0x0B, 0x0C, 0x12, 0x16, 0x18, 0x1E, 0x2C, 0x2D, 0x2E, 0x2F, 0x3D, 0x3E, 0x3F, 0x51] : List Nat) ∨
      (0x54 ≤ idx.toNat ∧ idx.toNat ≤ 0x7F) ∨ (0x85 ≤ idx.toNat ∧ idx.toNat ≤ 0xBF) ∨
      (0xC8 ≤ idx.toNat ∧ idx.toNat ≤ 0xCF) := by
  revert idx
  decide

theorem toNat_index {n : Nat} (h : n < 256) : (BitVec.ofNat 8 n).toNat = n := by
  rw [BitVec.toNat_ofNat]
  exact Nat.mod_eq_of_lt h

/-- Settles O22: no write, a free read. -/
theorem undefinedCsr : Obligations.UndefinedCsr := by
  refine fun s ra hm ha => ⟨fun n hn => ?_, fun idx hu => ⟨?_, ?_⟩⟩
  · rw [csrOf_eq_undefined, toNat_index hn]
  · rw [exec_priWcsr hm ha, hu]
    rfl
  · rw [exec_priRcsr hm ha, hu]
    rfl

/-! ## Reads -/

/-- The 53 bits of the address of a page-table entry (R89). -/
theorem getLsbD_pteBits (base addr : Word) (i : Nat) :
    (base.extractLsb' 49 4 ++ ((addr.extractLsb' 52 1).signExtend 6 ++ addr.extractLsb' 13 40 ++ (0 : BitVec 3))
      : BitVec (4 + (6 + 40 + 3))).getLsbD i =
      if i < 3 then false else if i < 43 then addr.getLsbD (i + 10) else if i < 49 then addr.getLsbD 52
      else decide (i < 53) && base.getLsbD i := by
  simp only [BitVec.getLsbD_append, BitVec.getLsbD_signExtend, BitVec.getLsbD_extractLsb', BitVec.msb_eq_getLsbD_last]
  by_cases h3 : i < 3
  · simp [h3, show i < 49 by omega]
  · by_cases h43 : i < 43
    · simp [h3, h43, show i < 49 by omega, show i - 3 < 40 by omega, show 13 + (i - 3) = i + 10 by omega]
    · by_cases h49 : i < 49
      · have h0 (h : i - 3 - 40 < 1) : i - 3 - 40 = 0 := by omega
        simp +contextual [h3, h43, h49, show ¬i - 3 < 40 by omega, show i - 3 - 40 < 6 by omega, h0]
      · simp [h3, h43, h49, show 49 + (i - 49) = i by omega, show (i - 49 < 4) = (i < 53) by simp; omega]

theorem getLsbD_pteAddr (base addr : Word) {k : Nat} (hk : k < 64) :
    (pteAddr base addr).getLsbD k =
      if k < 3 then false else if k < 43 then addr.getLsbD (k + 10) else if k < 49 then addr.getLsbD 52
      else base.getLsbD (min k 52) := by
  have h := getLsbD_pteBits base addr
  rw [pteAddr, BitVec.getLsbD_signExtend, BitVec.msb_eq_getLsbD_last]
  by_cases h53 : k < 53
  · simp only [hk, decide_true, Bool.true_and, if_pos h53]
    refine (h k).trans ?_
    simp [h53, show min k 52 = k by omega]
  · simp only [hk, decide_true, Bool.true_and, if_neg h53]
    refine (h 52).trans ?_
    simp [show ¬k < 3 by omega, show ¬k < 43 by omega, show ¬k < 49 by omega, show min k 52 = 52 by omega]

/-- Settles O19: reads where the content is a function of the state, and where it is free. -/
theorem csrReads : Obligations.CsrReads := by
  intro s ra idx hm ha
  refine ⟨fun v hv => exec_priRcsr_some hm ha ra hv, fun hn => ?_, fun p hp => ?_, fun p hp => ?_⟩
  · obtain ⟨v, hr⟩ := csrRead_none hn
    exact ⟨v, by rw [exec_priRcsr hm ha, hr]; rfl⟩
  · refine exec_priRcsr_some hm ha ra ?_
    simp only [List.mem_cons, List.not_mem_nil, or_false] at hp
    rcases hp with rfl | rfl | rfl | rfl | rfl | rfl | rfl | rfl | rfl <;> rfl
  · refine ⟨pteAddr p.2.1 p.2.2, exec_priRcsr_some hm ha ra ?_, ?_⟩
    · simp only [List.mem_cons, List.not_mem_nil, or_false] at hp
      rcases hp with rfl | rfl <;> rfl
    · refine ⟨fun k h1 h2 => ?_, fun k h1 h2 => ?_, fun k h1 h2 => ?_, fun k h1 h2 => ?_, fun k h1 => ?_⟩ <;>
        rw [getLsbD_pteAddr _ _ (by omega)]
      · rw [if_neg (by omega), if_neg (by omega), if_neg (by omega), Nat.min_eq_right (by omega)]
      · rw [if_neg (by omega), if_neg (by omega), if_neg (by omega), Nat.min_eq_left (by omega)]
      · rw [if_neg (by omega), if_neg (by omega), if_pos h2]
      · rw [if_neg (by omega), if_pos h2]
      · rw [if_pos h1]

end Sys2Proof.Machine
end

section
/-! What a CSR reads after a write: the plain registers by one table of masks, the others one by one. -/

namespace Sys2Proof.Machine

/-! ## Registers that keep what is written under a mask -/

/-- The fields a plain read-write register keeps of what is written (R37); none for every other register. -/
def Csr.keeps : Csr → Option Word
  | .ptbr | .intVec => some 0x0000FFFFFFFFFFFF
  | .iiEr => some 7
  | .priBase => some 0x00007FFFFFFF0000
  | .vpcr => some 0x00003FFFFFFFFFFF
  | .iaMask => some 0x7FFFFFFFFFFFFFFF
  | .pc0Cr => some 0xF3FFFFFFFFFFFFFF
  | .iaMatch | .pc1Cr | .timerTh | .dvMask | .dvMatch | .tc | .tid | .softcsr _ => some 0xFFFFFFFFFFFFFFFF
  | .hserrTh => some 0xFFF
  | .softErr | .hardErr | .timerCtl | .tcCtl | .icr => some 1
  | .dtbPcr => some 0xFFC0000000000003
  | .dsCtl => some 0x001E000000000000
  | .dcCtl => some 0xFFFE0000003FF7BF
  | .daMatch => some 0x00FFFFFFFFFFFFFF
  | .daMask | .daMatchMode | .idaMask => some 0x001FFFFFFFFFFFFF
  | .scCtl => some 0x1FFFFF
  | .mergeOvtime => some 0xFFFF
  | .idaMatch => some 0x003FFFFFFFFFFFFF
  | _ => none

theorem and_ones (d : Word) : d &&& 0xFFFFFFFFFFFFFFFF = d := BitVec.and_allOnes

/-- A plain register reads what was written, under its mask (R37, R389). -/
theorem csrValue_csrWrite {s t : State} {c : Csr} {d m : Word} (hm : c.keeps = some m) (h : s.csrWrite c d = .next t) :
    t.csrValue c = some (d &&& m) := by
  cases c <;> cases hm <;> simp only [State.csrWrite] at h
  case iaMatch | pc1Cr | timerTh | dvMask | dvMatch | tc | tid => cases h; rw [and_ones]; rfl
  case softcsr k => cases h; rw [and_ones]; simp [State.csrValue]
  case softErr | hardErr => cases h; split <;> rfl
  case dcCtl | scCtl => split at h <;> cases h; rfl
  all_goals cases h; rfl

theorem keeps_softcsr (idx : BitVec 8) (h : 0xD0 ≤ idx.toNat) : (csrOf idx).keeps = some 0xFFFFFFFFFFFFFFFF := by
  revert idx
  decide

/-! ## Registers that a write does not change -/

/-- Read-only registers (R38; D8, log 34). -/
def Csr.isReadOnly : Csr → Bool
  | .ivaForm | .ii0 | .ii1 | .iiMail | .excSum | .excPc | .iglInst | .intStat _ | .dva | .dvaForm | .cpCtl | .iva => true
  | _ => false

theorem csrWrite_readOnly {s t : State} {c : Csr} {d : Word} (hc : c.isReadOnly = true) (h : s.csrWrite c d = .next t) :
    t = s := by
  cases c <;> cases hc <;> cases h <;> rfl

/-! ## Interrupt requests and enables -/

/-- A word put at quarter `k` of 256 bits. -/
theorem getLsbD_atQuarter (d : Word) (k : Fin 4) (n : Nat) :
    ((d.setWidth 256 : BitVec 256) <<< (64 * k.val)).getLsbD n =
      (decide (64 * k.val ≤ n) && decide (n < 64 * k.val + 64) && d.getLsbD (n - 64 * k.val)) := by
  have hk := k.isLt
  rw [BitVec.getLsbD_shiftLeft, BitVec.getLsbD_setWidth]
  by_cases h1 : 64 * k.val ≤ n
  · by_cases h2 : n < 64 * k.val + 64
    · simp [h1, h2, show n < 256 by omega, show n - 64 * k.val < 256 by omega]
    · simp [h2, BitVec.getLsbD_of_ge d (n - 64 * k.val) (by omega)]
  · simp [h1, show n < 64 * k.val by omega]

/-- INT_CLR clears the requests its ones name (R652). -/
theorem pending_intClr {s t : State} {k : Fin 4} {d : Word} (h : s.csrWrite (.intClr k) d = .next t) (n : Nat) :
    t.ibox.pending.getLsbD n =
      (s.ibox.pending.getLsbD n &&
        !(decide (64 * k.val ≤ n) && decide (n < 64 * k.val + 64) && d.getLsbD (n - 64 * k.val))) := by
  cases h
  rw [BitVec.getLsbD_and, BitVec.getLsbD_not, getLsbD_atQuarter]
  by_cases hn : n < 256
  · simp [hn]
  · simp [BitVec.getLsbD_of_ge s.ibox.pending n (by omega)]

theorem getLsbD_setQuarter (w : BitVec 256) (k : Fin 4) (d : Word) {n : Nat} (hn : n < 256) :
    (setQuarter w k d).getLsbD n =
      if 64 * k.val ≤ n ∧ n < 64 * k.val + 64 then d.getLsbD (n - 64 * k.val) else w.getLsbD n := by
  have ones : (0xFFFFFFFFFFFFFFFF : BitVec 256) = (BitVec.allOnes 64).setWidth 256 := by decide
  rw [setQuarter, BitVec.getLsbD_or, BitVec.getLsbD_and, BitVec.getLsbD_not, ones, getLsbD_atQuarter, getLsbD_atQuarter,
    BitVec.getLsbD_allOnes]
  by_cases h : 64 * k.val ≤ n ∧ n < 64 * k.val + 64
  · simp [h.1, h.2, hn, show n - 64 * k.val < 64 by omega]
  · rw [if_neg h]
    have hf : (decide (64 * k.val ≤ n) && decide (n < 64 * k.val + 64)) = false := by simpa using h
    simp [hf, hn]

/-! ## Registers with a rule of their own -/

theorem keptBits_vptb : ∀ k : Nat, k < 64 →
    (0x001E000000000000 : Word).getLsbD k = (decide (49 ≤ k) && decide (k < 53)) := by
  decide

/-- VPT_BASE reads its four bits sign-extended (R108). -/
theorem getLsbD_vptbWrite (d : Word) {k : Nat} (hk : k < 64) :
    (vptbWrite d true).getLsbD k = if k < 49 then false else if k < 53 then d.getLsbD k else d.getLsbD 52 := by
  simp only [vptbWrite, sext53, if_true, BitVec.getLsbD_signExtend, BitVec.msb_eq_getLsbD_last, BitVec.getLsbD_extractLsb',
    BitVec.getLsbD_and, Nat.zero_add]
  rw [keptBits_vptb k hk, keptBits_vptb 52 (by omega)]
  by_cases h49 : k < 49
  · simp [h49, hk, show k < 53 by omega, show ¬49 ≤ k by omega]
  · by_cases h53 : k < 53
    · simp [h49, h53, hk, show 49 ≤ k by omega]
    · simp [h49, h53, hk]

/-- CID keeps the core's number (R180). -/
theorem cid_cidWrite (d : Word) (core : BitVec 4) :
    (d.extractLsb' 8 56 ++ (0 : BitVec 4) ++ core : BitVec 64) = (d &&& ~~~(0xFF : Word)) ||| core.setWidth 64 := by
  have low : ∀ k : Nat, k < 64 → (0xFF : Word).getLsbD k = decide (k < 8) := by decide
  refine BitVec.eq_of_getLsbD_eq fun k hk => ?_
  rw [BitVec.getLsbD_append, BitVec.getLsbD_append, BitVec.getLsbD_extractLsb', BitVec.getLsbD_or, BitVec.getLsbD_and,
    BitVec.getLsbD_not, low k hk, BitVec.getLsbD_setWidth]
  by_cases h4 : k < 4
  · simp [h4, hk, show k < 8 by omega]
  · have hc : core.getLsbD k = false := BitVec.getLsbD_of_ge core k (by omega)
    by_cases h8 : k < 8
    · simp [h4, h8, hk, hc, show k - 4 < 4 by omega]
    · simp [h4, h8, hk, hc, show ¬k - 4 < 4 by omega, show 8 + (k - 4 - 4) = k by omega, show k - 4 - 4 < 56 by omega]

/-- HSERR_CNT: bit 0 clears the counter, bit 32 the overflow flag (R118). -/
theorem getLsbD_hserrWrite (old d : Word) {k : Nat} (hk : k < 64) :
    (hserrWrite old d).getLsbD k =
      (old.getLsbD k && !(decide (k < 32) && d.getLsbD 0) && !(decide (k = 32) && d.getLsbD 32)) := by
  have counter : ∀ k : Nat, k < 64 → (0xFFFFFFFF00000000 : Word).getLsbD k = !decide (k < 32) := by decide
  have flagBit : ∀ k : Nat, k < 64 → (0xFFFFFFFEFFFFFFFF : Word).getLsbD k = !decide (k = 32) := by decide
  have ha (c : Bool) : (if c then old &&& 0xFFFFFFFF00000000 else old).getLsbD k
      = (old.getLsbD k && !(decide (k < 32) && c)) := by
    cases c with
    | false => simp
    | true => rw [if_pos rfl, BitVec.getLsbD_and, counter k hk, Bool.and_true]
  simp only [hserrWrite]
  rw [← ha]
  generalize (if d.getLsbD 0 then old &&& 0xFFFFFFFF00000000 else old) = w
  cases d.getLsbD 32 with
  | false => simp
  | true => rw [if_pos rfl, BitVec.getLsbD_and, flagBit k hk, Bool.and_true]

/-- INT_REQ while no request waits (R168). -/
theorem intReq_writeIntReq {s : State} (h : s.sbox.intReq.getLsbD 25 = false) (d : Word) :
    (s.writeIntReq d).sbox.intReq = d &&& 0x0380FFFF := by
  simp only [State.writeIntReq, h]
  rfl

/-! ## The obligation -/

/-- The indices that O21 lists with a mask. -/
theorem keeps_listed : ∀ p ∈ ([(0x08, 0x0000FFFFFFFFFFFF), (0x09, 7), (0x10, 0x00007FFFFFFF0000),
    (0x19, 0x00003FFFFFFFFFFF), (0x1A, 0xFFFFFFFFFFFFFFFF), (0x1B, 0x7FFFFFFFFFFFFFFF), (0x1F, 0x0000FFFFFFFFFFFF),
    (0x24, 0xF3FFFFFFFFFFFFFF), (0x25, 0xFFFFFFFFFFFFFFFF), (0x27, 0xFFF), (0x29, 1), (0x3C, 1), (0x2A, 1),
    (0x2B, 0xFFFFFFFFFFFFFFFF), (0x47, 0xFFC0000000000003), (0x49, 0x001E000000000000), (0x4A, 0xFFFE0000003FF7BF),
    (0x4C, 0x00FFFFFFFFFFFFFF), (0x4D, 0x001FFFFFFFFFFFFF), (0x50, 0x001FFFFFFFFFFFFF), (0x52, 0xFFFFFFFFFFFFFFFF),
    (0x53, 0xFFFFFFFFFFFFFFFF), (0x80, 0x1FFFFF), (0x84, 0xFFFF), (0xC1, 0xFFFFFFFFFFFFFFFF), (0xC2, 1), (0xC3, 1),
    (0xC5, 0x003FFFFFFFFFFFFF), (0xC6, 0x001FFFFFFFFFFFFF), (0xC7, 0xFFFFFFFFFFFFFFFF)] : List (BitVec 8 × Word)),
    (csrOf p.1).keeps = some p.2 := by
  simp only [List.forall_mem_cons, List.not_mem_nil, false_imp_iff, implies_true, and_true]
  and_intros <;> rfl

theorem readOnly_listed : ∀ p ∈ ([0x0D, 0x0E, 0x0A, 0x1C, 0x1D, 0x28, 0x30, 0x31, 0x32, 0x33, 0x4E, 0x4F, 0x07, 0x83,
    0xC0] : List (BitVec 8)), (csrOf p).isReadOnly = true := by
  decide

/-- The two field groups of UPCR, chosen by the index (R109). -/
theorem upcr_listed : ∀ p ∈ ([(0x20, 0), (0x21, 7), (0x22, 0x00007F8000000000), (0x23, 0x00007F8000000007)]
    : List (BitVec 8 × Word)), ∃ u e, csrOf p.1 = .upcr u e ∧
      ((if u then (0x00007F8000000000 : Word) else 0) ||| if e then 7 else 0) = p.2 := by
  simp only [List.forall_mem_cons, List.not_mem_nil, false_imp_iff, implies_true, and_true]
  exact ⟨⟨false, false, rfl, rfl⟩, ⟨false, true, rfl, rfl⟩, ⟨true, false, rfl, rfl⟩, ⟨true, true, rfl, rfl⟩⟩

/-- Settles O21: the plain registers by their masks, the others by their rules. -/
theorem csrWriteThenRead : Obligations.CsrWriteThenRead := by
  intro s t d
  refine ⟨fun p hp => csrValue_csrWrite (keeps_listed p hp), fun n h1 h2 h => ?softcsr, fun p hp h => ?upcr,
    fun p hp => csrWrite_readOnly (readOnly_listed p hp), fun k => ⟨rfl, pending_intClr, fun h n hn => ?ier⟩,
    fun h => ?isStat, fun h => ?dcStat, fun h => ?scStat, fun h => ?isCtl, fun h => ?vptBase, fun h => ?cid,
    fun h => ?dsStat, fun h => ?issueCtl, ⟨_, _, rfl⟩, ⟨_, rfl⟩, fun h k hk => ?hserrCnt, fun h hv => ?intReq,
    fun h => ?iiClr⟩
  case softcsr => rw [csrValue_csrWrite (keeps_softcsr _ (by rwa [toNat_index h2])) h, and_ones]
  case upcr =>
    obtain ⟨u, e, hc, hm⟩ := upcr_listed p hp
    rw [hc] at h
    cases h
    rw [← hm]
    rfl
  all_goals cases h
  case ier => exact getLsbD_setQuarter _ _ _ hn
  case vptBase => exact ⟨_, rfl, fun k hk => getLsbD_vptbWrite d hk⟩
  case cid => exact congrArg some (cid_cidWrite d s.plat.coreId)
  case hserrCnt => exact getLsbD_hserrWrite _ d hk
  case intReq => exact intReq_writeIntReq hv d
  case iiClr => exact ⟨rfl, rfl⟩
  all_goals rfl

end Sys2Proof.Machine
end

section
/-! The register files, and the state after a reset. -/

namespace Sys2Proof.Machine

/-! ## Integer registers -/

theorem writeReg_frame (s : State) (r : Reg) (v : Word) :
    s.writeReg r v = { s with gpr := (s.writeReg r v).gpr, sr := (s.writeReg r v).sr } := by
  unfold State.writeReg
  split
  · rfl
  · split <;> rfl

/-! ## Floating-point and vector registers -/

section
variable (s : State) (r r' : Reg) (v : Vec) (x : Word) (k : DataKind)

theorem readV_31 : s.readV 31 = 0 := if_pos rfl

theorem writeV_31 : s.writeV 31 v k = s := if_pos rfl

theorem writeF_31 : s.writeF 31 x k = s := if_pos rfl

/-- A scalar write is a write of the vector register, one free value further. -/
theorem writeF_eq {r : Reg} (h : r ≠ 31) :
    s.writeF r x k = (s.writeV r (s.free.extractLsb' 0 192 ++ x) k).drawn := if_neg h

variable {r r'} in
theorem readV_writeV_same (h : r ≠ 31) : (s.writeV r v k).readV r = v := by
  rw [State.readV, if_neg h, State.writeV, if_neg h]
  exact Vector.getElem_set_self r.isLt

variable {r r'} in
theorem kindOf_writeV_same (h : r ≠ 31) : (s.writeV r v k).kindOf r = k := by
  rw [State.kindOf, if_neg h, State.writeV, if_neg h]
  exact Vector.getElem_set_self r.isLt

variable {r r'} in
theorem readF_writeF_same (h : r ≠ 31) : (s.writeF r x k).readF r = x := by
  have hv : (s.writeF r x k).readV r = s.free.extractLsb' 0 192 ++ x := by
    rw [writeF_eq s x k h]
    exact readV_writeV_same s _ k h
  rw [State.readF, hv, BitVec.extractLsb'_append_eq_of_add_le (by omega), BitVec.extractLsb'_eq_self]

variable {r r'} in
theorem vr_writeV_other (h : r' ≠ r) :
    (s.writeV r v k).vr[r'.toNat]'r'.isLt = s.vr[r'.toNat]'r'.isLt ∧
      (s.writeV r v k).kinds[r'.toNat]'r'.isLt = s.kinds[r'.toNat]'r'.isLt := by
  have hne : r.toNat ≠ r'.toNat := fun hn => h (BitVec.eq_of_toNat_eq hn.symm)
  unfold State.writeV
  split
  · exact ⟨rfl, rfl⟩
  · exact ⟨Vector.getElem_set_ne r.isLt _ hne, Vector.getElem_set_ne r.isLt _ hne⟩

variable {r r'} in
theorem readV_writeV_other (h : r' ≠ r) : (s.writeV r v k).readV r' = s.readV r' := by
  rw [State.readV, State.readV, (vr_writeV_other s v k h).1]

variable {r r'} in
theorem kindOf_writeV_other (h : r' ≠ r) : (s.writeV r v k).kindOf r' = s.kindOf r' := by
  rw [State.kindOf, State.kindOf, (vr_writeV_other s v k h).2]

theorem writeV_frame : s.writeV r v k = { s with vr := (s.writeV r v k).vr, kinds := (s.writeV r v k).kinds } := by
  unfold State.writeV
  split <;> rfl

/-- A scalar write reads as the write of the vector register it makes. -/
theorem writeF_reads : ∃ v, (∀ r', (s.writeF r x k).readV r' = (s.writeV r v k).readV r') ∧
    ∀ r', (s.writeF r x k).kindOf r' = (s.writeV r v k).kindOf r' := by
  refine ⟨s.free.extractLsb' 0 192 ++ x, ?_⟩
  unfold State.writeF State.writeV
  split <;> exact ⟨fun _ => rfl, fun _ => rfl⟩

theorem writeF_frame :
    s.writeF r x k =
      { s with vr := (s.writeF r x k).vr, kinds := (s.writeF r x k).kinds, draws := (s.writeF r x k).draws } := by
  unfold State.writeF State.writeV
  split <;> rfl

end

/-- Which data suit an instruction, as O5 lists it (R30, R405). -/
theorem suits_iff (k u : DataKind) : k.suits u = true ↔
    k = .unwritten ∨ (k = .image ∧ u ≠ .single) ∨ (k = .single ∧ u = .single) ∨
      (k = .double ∧ (u = .double ∨ u = .image)) ∨ (k = .integer ∧ (u = .integer ∨ u = .image)) := by
  cases k <;> cases u <;> decide

/-- Settles O5: the laws of the register files, and of data of another kind. -/
theorem registerFiles : Obligations.RegisterFiles := by
  refine ⟨fun s r v => ⟨readReg_31 s, writeReg_31 s v, readReg_writeReg_same s v, fun r' => readReg_writeReg_other s v,
    writeReg_frame s r v⟩, fun s r v x k => ⟨readV_31 s, writeV_31 s v k, writeF_31 s x k, fun h => ?_, fun r' h => ?_,
    writeV_frame s r v k, writeF_frame s r x k⟩, fun s r u => ?_⟩
  · obtain ⟨w, -, hk⟩ := writeF_reads s r x k
    exact ⟨readV_writeV_same s v k h, readF_writeF_same s x k h, kindOf_writeV_same s v k h,
      (hk r).trans (kindOf_writeV_same s w k h)⟩
  · obtain ⟨w, hr, hk⟩ := writeF_reads s r x k
    exact ⟨readV_writeV_other s v k h, (hr r').trans (readV_writeV_other s w k h), kindOf_writeV_other s v k h,
      (hk r').trans (kindOf_writeV_other s w k h)⟩
  · dsimp only
    rw [← suits_iff]
    refine ⟨fun h => ⟨useV_suits h, useF_suits h⟩, fun h => ?_⟩
    have hn : s.suits r u = false := Bool.eq_false_iff.mpr h
    simp only [State.useV, State.useF, hn]
    exact ⟨rfl, rfl⟩

/-! ## The bank of system registers -/

theorem srSlot_listed : ∀ p ∈ ([(1, 0), (2, 1), (4, 2), (5, 3), (6, 4), (7, 5), (20, 6), (21, 7), (22, 8), (23, 9)]
    : List (Reg × Fin 10)), p.1 ≠ 31 ∧ srSlot p.1 = some p.2 := by
  simp only [List.forall_mem_cons, List.not_mem_nil, false_imp_iff, implies_true, and_true]
  and_intros <;> decide

theorem srSlot_unlisted (r : Reg) (h : r ∉ ([1, 2, 4, 5, 6, 7, 20, 21, 22, 23, 31] : List Reg)) :
    r ≠ 31 ∧ srSlot r = none := by
  revert r
  decide

theorem srActive_iff (s : State) : s.srActive = true ↔ s.mode = .hm ∧ s.ibox.isCtl.getLsbD 0 = true := by
  simp [State.srActive]

/-- A number that names no system register now names the ordinary one. -/
theorem readReg_gpr {s : State} {r : Reg} (h : r ≠ 31) (hk : s.srOf r = none) :
    s.readReg r = s.gpr[r.toNat]'r.isLt := by simp only [State.readReg, if_neg h, hk]

theorem readReg_sr {s : State} {r : Reg} {k : Fin 10} (h : r ≠ 31) (hk : s.srOf r = some k) :
    s.readReg r = s.sr[k] := by simp only [State.readReg, if_neg h, hk]

/-- Settles O6: which file a register number names. -/
theorem systemRegisterBank : Obligations.SystemRegisterBank := by
  refine fun s v => ⟨fun p hp => ?_, fun r hr => ?_⟩
  · obtain ⟨h31, hs⟩ := srSlot_listed p hp
    rw [← srActive_iff]
    refine ⟨fun ha => ?_, fun ha => ?_⟩
    · have hk : s.srOf p.1 = some p.2 := by rw [State.srOf, if_pos ha, hs]
      exact ⟨readReg_sr h31 hk, writeReg_sr v h31 hk⟩
    · have hk : s.srOf p.1 = none := by rw [State.srOf, if_neg ha]
      exact ⟨readReg_gpr h31 hk, writeReg_gpr v h31 hk⟩
  · obtain ⟨h31, hs⟩ := srSlot_unlisted r hr
    have hk : s.srOf r = none := by rw [State.srOf, hs, ite_self]
    exact ⟨readReg_gpr h31 hk, writeReg_gpr v h31 hk⟩

/-! ## Resets -/

theorem toNat_entryAddr (priBase : Word) (off : BitVec 16) :
    (entryAddr priBase off).toNat = priBase.toNat / 2 ^ 16 % 2 ^ 32 * 2 ^ 16 + off.toNat := by
  rw [entryAddr, BitVec.toNat_append, ← Nat.shiftLeft_add_eq_or_of_lt off.isLt, BitVec.toNat_append,
    ← Nat.shiftLeft_add_eq_or_of_lt (BitVec.isLt _), BitVec.extractLsb'_toNat, Nat.shiftRight_eq_div_pow, Nat.shiftLeft_eq]
  simp

/-- Settles O51: the reset entry, and the entry base over each reset. -/
theorem resetEntry : Obligations.ResetEntry := by
  have hentry : entryAddr 0 0x1000 = 0x1000 := by decide
  have hpc : ∀ s : State, s.cold.pc = 0x1000 := fun s => (rfl : s.cold.pc = entryAddr 0 0x1000).trans hentry
  refine ⟨rfl, by decide, rfl, fun s => ⟨(wake_atEntry s).mode, wake_priBase s, toNat_entryAddr _ 0x1000, hpc s,
    (cold_atEntry s).mode, cold_priBase s, hpc s, ?_, ?_⟩⟩
  · exact (cold_atEntry s).mode
  · exact cold_priBase s

theorem memoryOk_reset : State.reset.memoryOk := ⟨by decide, reset_mem_wf⟩

theorem buffersOk_reset : State.reset.buffersOk := ⟨Nat.zero_le _, .nil, Nat.zero_le _⟩

theorem fieldsOk_reset : State.reset.fieldsOk := ⟨by decide, by decide, by decide, by decide, .inl rfl⟩

/-- The state after a reset is in HM, where no interrupt is recognised. -/
theorem recognised_reset : State.reset.recognised = none := if_pos (by decide)

/-- Settles O52: the reset values of table R54 and the invariants at reset. -/
theorem resetState : Obligations.ResetState := by
  unfold Obligations.ResetState
  dsimp only
  refine ⟨rfl, rfl, rfl, rfl, rfl, rfl, rfl, rfl, rfl, rfl, rfl, rfl, rfl, rfl, rfl, rfl, rfl, rfl, rfl, rfl, rfl, rfl,
    rfl, rfl, rfl, rfl, rfl, rfl, rfl, rfl, rfl, rfl, rfl, rfl, rfl, rfl, rfl, rfl, ?_⟩
  exact ⟨fun k => Vector.getElem_replicate k.isLt, rfl, rfl, recognised_reset, memoryOk_reset, buffersOk_reset,
    fieldsOk_reset⟩

end Sys2Proof.Machine
end

section
/-! The translation buffers: which addresses an entry translates and to where, what a fill adds, what an invalidation takes
out. -/

namespace Sys2Proof.Machine

/-! ## Pages and frames -/

theorem ghShift_le (gh : BitVec 2) : ghShift gh ≤ 15 := by
  have := gh.isLt
  unfold ghShift
  omega

/-- Pages match when they lie in one block of the granularity (R87, R275). -/
theorem pageMatch_iff (gh : BitVec 2) (tag page : BitVec 40) :
    pageMatch gh tag page = true ↔ tag.toNat / 2 ^ (5 * gh.toNat) = page.toNat / 2 ^ (5 * gh.toNat) := by
  rw [pageMatch, beq_iff_eq, ← BitVec.toNat_inj, BitVec.toNat_ushiftRight, BitVec.toNat_ushiftRight,
    Nat.shiftRight_eq_div_pow, Nat.shiftRight_eq_div_pow, ghShift]

/-- The offset of the granularity comes from the address, what lies above from the frame (R275 step 6). -/
theorem getLsbD_joinPage (frame : BitVec 35) (gh : BitVec 2) (va : Word) (i : Nat) :
    (joinPage frame gh va).getLsbD i = if i < 13 + ghShift gh then va.getLsbD i else frame.getLsbD (i - 13) := by
  have hg := ghShift_le gh
  have low : ((BitVec.allOnes 48) >>> (35 - ghShift gh)).getLsbD i = decide (i < 13 + ghShift gh) := by
    rw [BitVec.getLsbD_ushiftRight, BitVec.getLsbD_allOnes]
    exact decide_eq_decide.mpr (by omega)
  have high : (frame ++ (0 : BitVec 13)).getLsbD i = (!decide (i < 13) && frame.getLsbD (i - 13)) := by
    rw [BitVec.getLsbD_append]
    by_cases h : i < 13 <;> simp [h]
  simp only [joinPage, BitVec.getLsbD_or, BitVec.getLsbD_and, BitVec.getLsbD_not, BitVec.getLsbD_setWidth, low]
  by_cases h : i < 13 + ghShift gh
  · simp [h, show i < 48 by omega]
  · have hf (h48 : ¬i < 48) : frame.getLsbD (i - 13) = false := BitVec.getLsbD_of_ge frame _ (by omega)
    by_cases h48 : i < 48
    · simpa [h, h48, show ¬i < 13 by omega] using high
    · simp [h, h48, hf]

/-- The address of a frame's block and an offset within it. -/
theorem toNat_joinPage (frame : BitVec 35) (gh : BitVec 2) (va : Word) :
    (joinPage frame gh va).toNat = frame.toNat / 2 ^ (5 * gh.toNat) * 2 ^ (13 + 5 * gh.toNat)
      + va.toNat % 2 ^ (13 + 5 * gh.toNat) := by
  refine Nat.eq_of_testBit_eq fun i => ?_
  rw [BitVec.testBit_toNat, getLsbD_joinPage, ghShift, Nat.mul_comm (frame.toNat / _),
    Nat.testBit_two_pow_mul_add _ (Nat.mod_lt _ (Nat.two_pow_pos _))]
  split
  · rw [Nat.testBit_mod_two_pow, BitVec.testBit_toNat, decide_eq_true ‹_›, Bool.true_and]
  · rw [Nat.testBit_div_two_pow, BitVec.testBit_toNat]
    congr 1
    omega

theorem toNat_clearLow2 (w : Word) : (clearLow2 w).toNat = w.toNat / 4 * 4 := by
  have h : clearLow2 w = (w >>> 2) <<< 2 := by
    refine BitVec.eq_of_getLsbD_eq fun i hi => ?_
    have low : ∀ i : Nat, i < 64 → (~~~(3 : Word)).getLsbD i = !decide (i < 2) := by decide
    rw [clearLow2, BitVec.getLsbD_and, low i hi, BitVec.getLsbD_shiftLeft, BitVec.getLsbD_ushiftRight]
    by_cases h2 : i < 2
    · simp [h2]
    · simp [h2, hi, show 2 + (i - 2) = i by omega]
  rw [h, BitVec.toNat_shiftLeft, BitVec.toNat_ushiftRight, Nat.shiftRight_eq_div_pow, Nat.shiftLeft_eq]
  omega

/-- The word-aligned address of an instruction in the frame of an ITB entry. -/
theorem toNat_joinPage_fetch (pfn : BitVec 34) (gh : BitVec 2) (pc : Word) :
    (joinPage ((0 : BitVec 1) ++ pfn) gh (clearLow2 pc)).toNat =
      pfn.toNat / 2 ^ (5 * gh.toNat) * 2 ^ (13 + 5 * gh.toNat) + pc.toNat % 2 ^ (13 + 5 * gh.toNat) / 4 * 4 := by
  have hp : 2 ^ (13 + 5 * gh.toNat) = 4 * 2 ^ (11 + 5 * gh.toNat) := by
    rw [show 13 + 5 * gh.toNat = 2 + (11 + 5 * gh.toNat) by omega, Nat.pow_add]
  have hf : ((0 : BitVec 1) ++ pfn).toNat = pfn.toNat := by
    rw [BitVec.toNat_append]
    simp
  rw [toNat_joinPage, toNat_clearLow2, hf, hp, Nat.mod_mul_right_div_self, Nat.mul_comm 4, Nat.mul_mod_mul_right]

/-! ## The ITB -/

/-- What an entry matches: the block of its page, in its virtual machine, in its process unless KS is set (R275). -/
theorem ItbEntry.hits_iff (e : ItbEntry) (vpn : BitVec 2) (upn : BitVec 8) (va : Word) :
    e.hits vpn upn va = true ↔
      e.tag.toNat / 2 ^ (5 * e.gh.toNat) = (vpage va).toNat / 2 ^ (5 * e.gh.toNat) ∧ e.vpn = vpn ∧
        (e.ks = true ∨ e.upn = upn) := by
  simp [ItbEntry.hits, pageMatch_iff, and_assoc]

theorem itbLookup_of_first_hits {s : State} {e : ItbEntry} {rest : List ItbEntry} (hl : s.itb = e :: rest)
    (hh : e.hits s.vpn s.upn s.pc = true) : s.itbLookup =
      if e.enables s.mode then .hit e (joinPage ((0 : BitVec 1) ++ e.pfn) e.gh (clearLow2 s.pc)) else .noExecute := by
  simp only [State.itbLookup, hl, List.find?_cons, hh]

theorem itbLookup_of_only_misses {s : State} {e : ItbEntry} (hl : s.itb = [e])
    (hh : ¬e.hits s.vpn s.upn s.pc = true) : s.itbLookup = .miss := by
  simp only [State.itbLookup, hl, List.find?_cons, Bool.eq_false_iff.mpr hh, List.find?_nil]

/-- A fill changes the ITB, and draws where it replaces. -/
theorem itbFill_frame (s : State) (d : Word) :
    s.itbFill d = { s with itb := (s.itbFill d).itb, draws := (s.itbFill d).draws } := by
  unfold State.itbFill
  dsimp only
  split <;> rfl

/-- The filled entry comes first; it is the only one in an ITB that was empty. -/
theorem itb_itbFill (s : State) (d : Word) :
    ∃ rest, (s.itbFill d).itb = s.itbNew d :: rest ∧ (s.itb = [] → rest = []) := by
  unfold State.itbFill
  dsimp only
  split
  · exact ⟨_, rfl, fun h => by rw [h]; rfl⟩
  · exact ⟨_, rfl, fun h => by rw [h]; rfl⟩

/-- The bit of ITB_PTE that lets a translated mode execute (R82). -/
def executeBit : Mode → Nat
  | .um => 11
  | .km => 10
  | _ => 9

theorem itbNew_enables (s : State) (d : Word) {m : Mode} (h : m ≠ .hm) :
    (s.itbNew d).enables m = d.getLsbD (executeBit m) := by
  cases m with
  | hm => exact absurd rfl h
  | vm | km | um => rfl

theorem modeOf_ne_hm {b : BitVec 2} (h : b ≠ 0) : modeOf b ≠ .hm := by
  revert b
  decide

/-- What the filled entry matches. -/
theorem itbNew_hits_iff (s : State) (d : Word) (vpn : BitVec 2) (upn : BitVec 8) (va : Word) :
    (s.itbNew d).hits vpn upn va = true ↔
      (vpage va).toNat / 2 ^ (5 * (d.extractLsb' 5 2).toNat) =
          (vpage s.ibox.itbTag).toNat / 2 ^ (5 * (d.extractLsb' 5 2).toNat) ∧
        vpn = s.vpn ∧ (d.getLsbD 4 = true ∨ upn = s.upn) := by
  rw [ItbEntry.hits_iff, eq_comm, eq_comm (b := vpn), eq_comm (b := upn)]
  exact Iff.rfl

/-! ## The DTB -/

theorem DtbEntry.hits_iff (e : DtbEntry) (vpn : BitVec 2) (upn : BitVec 8) (va : Word) :
    e.hits vpn upn va = true ↔
      e.tag.toNat / 2 ^ (5 * e.gh.toNat) = (vpage va).toNat / 2 ^ (5 * e.gh.toNat) ∧ e.vpn = vpn ∧
        (e.ks = true ∨ e.upn = upn) := by
  simp [DtbEntry.hits, pageMatch_iff, and_assoc]

/-- What the filled entry matches. -/
theorem dtbNew_hits_iff (s : State) (d : Word) (vpn : BitVec 2) (upn : BitVec 8) (va : Word) :
    (s.dtbNew d).hits vpn upn va = true ↔
      (vpage va).toNat / 2 ^ (5 * (d.extractLsb' 5 2).toNat) =
          (vpage s.dbox.dtbTag).toNat / 2 ^ (5 * (d.extractLsb' 5 2).toNat) ∧
        vpn = s.dtbVpn ∧ (d.getLsbD 4 = true ∨ upn = s.dtbUpn) := by
  rw [DtbEntry.hits_iff, eq_comm, eq_comm (b := vpn), eq_comm (b := upn)]
  exact Iff.rfl

/-- A fill of an empty DTB. -/
theorem dtbFill_empty {s : State} (h : s.dtb = []) (d : Word) : s.dtbFill d = { s with dtb := [s.dtbNew d] } := by
  simp [State.dtbFill, h]

theorem dtbLookup_of_only_misses {s : State} {e : DtbEntry} {pm : Mode} {rd wr : Bool} {va : Word} (hl : s.dtb = [e])
    (hh : ¬e.hits s.dtbVpn s.dtbUpn va = true) : s.dtbLookup pm rd wr va = .miss := by
  simp only [State.dtbLookup, hl, List.filter_cons, if_neg hh, List.filter_nil]

/-- The access of kind `rd`, `wr` has not every right it needs of the entry in mode `pm` (R286). -/
def DtbEntry.violates (e : DtbEntry) (pm : Mode) (rd wr : Bool) : Bool :=
  (rd && !e.readEnable pm) || (wr && !e.writeEnable pm)

theorem dtbLookup_of_only_hits {s : State} {e : DtbEntry} {va : Word} (hl : s.dtb = [e])
    (hh : e.hits s.dtbVpn s.dtbUpn va = true) (pm : Mode) (rd wr : Bool) : s.dtbLookup pm rd wr va =
      if e.violates pm rd wr || rd && e.faultOnRead || wr && e.faultOnWrite then
        .denied (e.violates pm rd wr) (rd && e.faultOnRead) (wr && e.faultOnWrite)
      else .pa (joinPage e.pa e.gh va) := by
  simp only [State.dtbLookup, hl, List.filter_cons, if_pos hh, List.filter_nil]
  rfl

/-- The bit of DTB_PTE that lets a mode read (R142). -/
def readBit : Mode → Nat
  | .hm => 8
  | .vm => 9
  | .km => 10
  | .um => 11

/-- The bit of DTB_PTE that lets a mode write (R142). -/
def writeBit : Mode → Nat
  | .hm => 12
  | .vm => 13
  | .km => 14
  | .um => 15

theorem dtbNew_readEnable (s : State) (d : Word) (m : Mode) : (s.dtbNew d).readEnable m = d.getLsbD (readBit m) := by
  cases m <;> rfl

theorem dtbNew_writeEnable (s : State) (d : Word) (m : Mode) : (s.dtbNew d).writeEnable m = d.getLsbD (writeBit m) := by
  cases m <;> rfl

theorem dtbNew_violates_iff (s : State) (d : Word) (m : Mode) (rd wr : Bool) :
    (s.dtbNew d).violates m rd wr = true ↔
      (rd = true ∧ d.getLsbD (readBit m) = false) ∨ (wr = true ∧ d.getLsbD (writeBit m) = false) := by
  simp [DtbEntry.violates, dtbNew_readEnable, dtbNew_writeEnable]

/-! ## Invalidations -/

/-- `l'` is `l` without exactly the entries that `gone` names. -/
def TakesOut {α : Type} (gone : α → Prop) (l l' : List α) : Prop :=
  l'.Sublist l ∧ ∀ e, e ∈ l' ↔ e ∈ l ∧ ¬gone e

theorem takesOut_all {α : Type} (l : List α) : TakesOut (fun _ => True) l [] :=
  ⟨l.nil_sublist, fun e => by simp⟩

theorem takesOut_filter {α : Type} {gone : α → Prop} {keep : α → Bool} (h : ∀ e, keep e = true ↔ ¬gone e)
    (l : List α) : TakesOut gone l (l.filter keep) :=
  ⟨List.filter_sublist, fun e => by rw [List.mem_filter, h]⟩

section
variable (v v' : BitVec 2) (u u' : BitVec 8) (ks : Bool)

/-- The entries that IVP leaves, of virtual machine `v` and with KS `ks` (R85, R145). -/
theorem ivp_keeps_iff : (!(v == v' && !ks)) = true ↔ ¬(v = v' ∧ ks = false) := by
  simp [imp_iff_not_or]

/-- The entries that IU leaves, of process `u` (R86, R146). -/
theorem iu_keeps_iff : (!(v == v' && u == u' && !ks)) = true ↔ ¬(v = v' ∧ u = u' ∧ ks = false) := by
  simp [imp_iff_not_or, or_assoc]

end

/-- The entries that ITB_IS leaves (R87). -/
theorem ItbEntry.misses_iff (e : ItbEntry) (vpn : BitVec 2) (upn : BitVec 8) (va : Word) :
    (!e.hits vpn upn va) = true ↔
      ¬(e.tag.toNat / 2 ^ (5 * e.gh.toNat) = (vpage va).toNat / 2 ^ (5 * e.gh.toNat) ∧ e.vpn = vpn ∧
        (e.upn = upn ∨ e.ks = true)) := by
  rw [Bool.not_eq_true', ← Bool.not_eq_true, hits_iff, or_comm]

/-- The entries that DTB_IS leaves (R147). -/
theorem DtbEntry.misses_iff (e : DtbEntry) (vpn : BitVec 2) (upn : BitVec 8) (va : Word) :
    (!e.hits vpn upn va) = true ↔
      ¬(e.tag.toNat / 2 ^ (5 * e.gh.toNat) = (vpage va).toNat / 2 ^ (5 * e.gh.toNat) ∧ e.vpn = vpn ∧
        (e.upn = upn ∨ e.ks = true)) := by
  rw [Bool.not_eq_true', ← Bool.not_eq_true, hits_iff, or_comm]

/-! ## The obligation -/

/-- Settles O47: the lookups after a fill of either buffer, and the entries each invalidation takes out. -/
theorem translationBuffers : Obligations.TranslationBuffers := by
  intro s d
  refine ⟨⟨s.itbFill d, rfl, itbFill_frame s d, fun pc vpcr upcr hpc => ?itbFill⟩, ?itbInvalidate,
    fun hd => ⟨s.dtbFill d, rfl, ?_, fun va pcr pm rd wr => ?dtbFill⟩, ?dtbInvalidate⟩
  case itbFill =>
    intro u same enabled
    obtain ⟨rest, hrest, hempty⟩ := itb_itbFill s d
    have hsame : (s.itbNew d).hits u.vpn u.upn u.pc = true ↔ same := itbNew_hits_iff s d _ _ pc
    have hlookup (h : same) := itbLookup_of_first_hits (s := u) hrest (hsame.mpr h)
    have henables : (s.itbNew d).enables u.mode = enabled := itbNew_enables s d (modeOf_ne_hm hpc)
    rw [henables] at hlookup
    refine ⟨fun hs hn => ?_, fun h he => ?_, fun h he => ?_⟩
    · rw [hempty hs] at hrest
      exact itbLookup_of_only_misses (s := u) hrest (mt hsame.mp hn)
    · rw [hlookup h, he]
      rfl
    · exact ⟨_, _, (hlookup h).trans (if_pos he), toNat_joinPage_fetch _ _ pc⟩
  case itbInvalidate =>
    simp only [List.forall_mem_cons, List.not_mem_nil, false_imp_iff, implies_true, and_true]
    refine ⟨⟨_, rfl, rfl, takesOut_all _⟩, ⟨_, rfl, rfl, takesOut_filter (fun e => ?_) _⟩,
      ⟨_, rfl, rfl, takesOut_filter (fun e => ?_) _⟩, ⟨_, rfl, rfl, takesOut_filter (fun e => ?_) _⟩,
      ⟨_, rfl, rfl, takesOut_filter (fun e => ?_) _⟩⟩
    · exact bne_iff_ne
    · exact ivp_keeps_iff e.vpn _ e.ks
    · exact iu_keeps_iff e.vpn _ e.upn _ e.ks
    · exact e.misses_iff _ _ d
  case dtbFill =>
    intro u same readOk writeOk acv fr fw
    have hu : u.dtb = [s.dtbNew d] := congrArg State.dtb (dtbFill_empty hd d)
    have hsame : (s.dtbNew d).hits u.dtbVpn u.dtbUpn va = true ↔ same := dtbNew_hits_iff s d _ _ va
    have hacv : (s.dtbNew d).violates pm rd wr = true ↔ acv := dtbNew_violates_iff s d pm rd wr
    have hlookup (h : same) : u.dtbLookup pm rd wr va =
        if (s.dtbNew d).violates pm rd wr || fr || fw then .denied ((s.dtbNew d).violates pm rd wr) fr fw
        else .pa (joinPage (s.dtbNew d).pa (s.dtbNew d).gh va) := dtbLookup_of_only_hits hu (hsame.mpr h) pm rd wr
    have hallowed (h : ¬acv) : (s.dtbNew d).violates pm rd wr = false := Bool.eq_false_iff.mpr (mt hacv.mp h)
    refine ⟨fun hn => dtbLookup_of_only_misses hu (mt hsame.mp hn), fun h ha hr hw => ?_, fun h ha => ?_,
      fun h ha hf => ?_⟩
    · rw [hallowed ha, hr, hw] at hlookup
      exact ⟨_, hlookup h, toNat_joinPage _ _ va⟩
    · rw [hacv.mpr ha] at hlookup
      exact hlookup h
    · rw [hallowed ha] at hlookup
      exact (hlookup h).trans (if_pos (by simpa using hf))
  case dtbInvalidate =>
    simp only [List.forall_mem_cons, List.not_mem_nil, false_imp_iff, implies_true, and_true]
    refine ⟨⟨_, rfl, rfl, takesOut_all _⟩, ⟨_, rfl, rfl, takesOut_filter (fun e => ?_) _⟩,
      ⟨_, rfl, rfl, takesOut_filter (fun e => ?_) _⟩, ⟨_, rfl, rfl, takesOut_filter (fun e => ?_) _⟩,
      ⟨_, rfl, rfl, takesOut_filter (fun e => ?_) _⟩⟩
    · exact bne_iff_ne
    · exact ivp_keeps_iff e.vpn _ e.ks
    · exact iu_keeps_iff e.vpn _ e.upn _ e.ks
    · exact e.misses_iff _ _ d
  · rw [dtbFill_empty hd]

end Sys2Proof.Machine
end

section
/-! Additions that trap: the groups of exception bits, the elements of the destination, and the one entry to ARITH. -/

namespace Sys2Proof.Machine

/-! ## Operands and elements -/

/-- Fetching an operand moves the count of free values, and nothing else. -/
theorem useV_draws (s : State) (r : Reg) (u : DataKind) :
    (s.useV r u).2 = { s with draws := (s.useV r u).2.draws } := by
  obtain h | h := useV_state s r u
  · rw [h]
  · rw [h]
    rfl

section
variable (s : State) (fa fb : Reg)

/-- The state once both operands of an addition have been fetched. -/
theorem useV_useV_draws (u : DataKind) :
    ((s.useV fa u).2.useV fb u).2 = { s with draws := ((s.useV fa u).2.useV fb u).2.draws } := by
  rw [useV_draws (s.useV fa u).2, useV_draws s]

/-- The outcome of element `k` of the sum of two vector registers. -/
def State.sumOf (k : Nat) : FpOutcome :=
  let a := s.useV fa .double
  let b := a.2.useV fb .double
  fpAdd s.fpcr (elem a.1 k) (elem b.1 k) (elem b.2.free k)

/-- How many free values have been drawn when an addition writes its results. -/
def State.sumDraws : Nat := ((s.useV fa .double).2.useV fb .double).2.draws + 1

/-- An operand of an addition does not suit it. -/
def State.sumMixed : Bool := !(s.suits fa .double && s.suits fb .double)

theorem addElem_useV (k : Nat) :
    ((s.useV fa .double).2.useV fb .double).2.addElem (s.useV fa .double).1
      ((s.useV fa .double).2.useV fb .double).1 k = s.sumOf fa fb k := by
  have hf : ((s.useV fa .double).2.useV fb .double).2.fpcr = s.fpcr := by
    rw [useV_useV_draws]
  rw [State.addElem, hf]
  rfl

theorem drawn_useV :
    ((s.useV fa .double).2.useV fb .double).2.drawn = { s with draws := s.sumDraws fa fb } :=
  congrArg State.drawn (useV_useV_draws s fa fb .double)

variable {s} {fc : Reg} (h : fc ≠ 31)
include h

/-- FADDD past the decode stage (R562). -/
theorem exec_faddd (hp : s.passes .fp) : exec (.faddd fa fb fc) s =
    .next (({ s with draws := s.sumDraws fa fb } : State).finishScalar fc (s.sumMixed fa fb) (s.sumOf fa fb 0)) := by
  rw [← drawn_useV, ← addElem_useV]
  exact (if_neg h).trans (atDecode_run hp _)

/-- VADDD past the decode stage (R571). -/
theorem exec_vaddd (hp : s.passes .simd) : exec (.vaddd fa fb fc) s =
    .next (({ s with draws := s.sumDraws fa fb } : State).finishVector fc (s.sumMixed fa fb) (s.sumOf fa fb 0)
      (s.sumOf fa fb 1) (s.sumOf fa fb 2) (s.sumOf fa fb 3)) := by
  rw [← drawn_useV, ← addElem_useV, ← addElem_useV, ← addElem_useV, ← addElem_useV]
  exact (if_neg h).trans (atDecode_run hp _)

end

/-- The elements of a vector of four. -/
theorem elem_vec4 (f : Nat → Word) {k : Nat} (h : k < 4) : elem (vec4 (f 0) (f 1) (f 2) (f 3)) k = f k := by
  refine BitVec.eq_of_getLsbD_eq fun i hi => ?_
  simp only [elem, vec4, BitVec.getLsbD_extractLsb', BitVec.getLsbD_append, hi, decide_true, Bool.true_and]
  obtain rfl | rfl | rfl | rfl : k = 0 ∨ k = 1 ∨ k = 2 ∨ k = 3 := by omega
  · simp [hi]
  · simp [hi, show ¬64 + i < 64 by omega]
  · simp [hi, show ¬128 + i < 64 by omega, show ¬128 + i - 64 < 64 by omega, show 128 + i - 64 - 64 = i by omega]
  · simp [show ¬192 + i < 64 by omega, show ¬192 + i - 64 < 64 by omega,
      show ¬192 + i - 64 - 64 < 64 by omega, show 192 + i - 64 - 64 - 64 = i by omega]

/-! ## What is written -/

/-- A trap needs software completion where FPCR[EXC_CTL][1] = 0 (R193). -/
theorem swcOf_true (f : Word) : swcOf f true = !f.getLsbD 1 := by
  simp [swcOf, excCtl]

/-- Of operands of the right type an element keeps its sum unless it traps with SWC (R203, U8). -/
theorem written_value {s : State} {o : FpOutcome} (n i : Nat) (h : s.fpcr.getLsbD 1 = true ∨ o.traps.none = true) :
    ({ s with draws := n } : State).written false i o = o.value := by
  have hs : swcOf s.fpcr (!o.traps.none) = false := by
    obtain h | h := h <;> simp [swcOf, excCtl, h]
  simp [State.written, hs]

/-- The flags of four elements, or-ed into FPCR one after the other (R194). -/
theorem or_groupBits (f : Word) (place : Nat → Nat) (x0 x1 x2 x3 : FpFlags) :
    f ||| groupBits place x0 x1 x2 x3 =
      f ||| x0.bitsAt (place 0) ||| x1.bitsAt (place 1) ||| x2.bitsAt (place 2) ||| x3.bitsAt (place 3) := by
  simp only [groupBits, BitVec.or_assoc]

/-! ## The entry to ARITH -/

/-- `t` is `s` after an instruction has written V[fc] and FPCR and entered ARITH (R590, R621). -/
def State.entersArith (s t : State) (fc : Reg) : Prop :=
  t.pc = entryAddr s.ibox.priBase 0xB80 ∧ t.ibox.excPc = sext53 s.pc ∧
    t.lock = { s.lock with valid := false, flag := false } ∧ (∀ r, r ≠ fc → t.readV r = s.readV r) ∧
    t = { s with
      pc := t.pc, lock := t.lock, vr := t.vr, kinds := t.kinds, fpcr := t.fpcr, draws := t.draws, lastExc := t.lastExc
      ibox := { s.ibox with excPc := t.ibox.excPc, excSum := t.ibox.excSum } }

/-- The entry, with what EXC_SUM, FPCR and the destination then hold. -/
structure ArithEntry (s t : State) (fc : Reg) (bits fpcr : Word) (v : Vec) : Prop where
  entered : s.entersArith t fc
  excSum : t.ibox.excSum = bits ||| (fc.setWidth 64 <<< 8)
  fpcr : t.fpcr = fpcr
  dest : t.readV fc = v

/-- ARITH raised once the flags and the destination have been written. -/
theorem arithEntry_writeV {s : State} {fc : Reg} (h : fc ≠ 31) (f bits : Word) (v : Vec) (n m : Nat) :
    ArithEntry s
      (({ ({ s with fpcr := f, draws := n } : State).writeV fc v .double with draws := m }.advance).raiseArith s.pc bits fc)
      fc bits f v := by
  have hother : ∀ r, r ≠ fc → (({ s with fpcr := f, draws := n } : State).writeV fc v .double).readV r = s.readV r :=
    fun r hr => readV_writeV_other _ v .double hr
  have hsame := readV_writeV_same { s with fpcr := f, draws := n } v .double h
  simp only [State.writeV, if_neg h] at hother hsame ⊢
  exact ⟨⟨rfl, rfl, rfl, hother, rfl⟩, rfl, rfl, hsame⟩

/-- FADDD with a trap (R561, R621). -/
theorem arithEntry_finishScalar {s : State} {fc : Reg} (h : fc ≠ 31) {o : FpOutcome} (ho : o.traps.none = false)
    (n : Nat) (mixed : Bool) : ∃ v : Vec,
      ArithEntry s (({ s with draws := n } : State).finishScalar fc mixed o) fc
        (o.traps.bitsAt 1 ||| flag (!s.fpcr.getLsbD 1) 0) (s.fpcr ||| o.flags.bitsAt 52) v ∧
      v.extractLsb' 0 64 = ({ s with draws := n } : State).written mixed 0 o := by
  simp only [State.finishScalar, ho, Bool.not_false, if_true, swcOf_true, writeF_eq _ _ _ h]
  refine ⟨_, arithEntry_writeV h _ _ _ _ _, ?_⟩
  rw [BitVec.extractLsb'_append_eq_of_add_le (by omega), BitVec.extractLsb'_eq_self]

/-- VADDD with a trap in some element (R571, R629). -/
theorem arithEntry_finishVector {s : State} {fc : Reg} (h : fc ≠ 31) {o : Nat → FpOutcome}
    (ho : ∃ k, k < 4 ∧ (o k).traps.none = false) (n : Nat) (mixed : Bool) : ∃ v : Vec,
      ArithEntry s (({ s with draws := n } : State).finishVector fc mixed (o 0) (o 1) (o 2) (o 3)) fc
        (groupBits excSumGroup (o 0).traps (o 1).traps (o 2).traps (o 3).traps ||| flag (!s.fpcr.getLsbD 1) 0)
        (s.fpcr ||| groupBits fpcrGroup (o 0).flags (o 1).flags (o 2).flags (o 3).flags) v ∧
      ∀ k, k < 4 → elem v k = ({ s with draws := n } : State).written mixed k (o k) := by
  have htrap : ((o 0).traps.none && (o 1).traps.none && (o 2).traps.none && (o 3).traps.none) = false := by
    obtain ⟨k, hk, ho⟩ := ho
    obtain rfl | rfl | rfl | rfl : k = 0 ∨ k = 1 ∨ k = 2 ∨ k = 3 := by omega
    all_goals simp [ho]
  simp only [State.finishVector, htrap, Bool.not_false, if_true, swcOf_true]
  exact ⟨_, arithEntry_writeV h _ _ _ _ _, fun k hk => elem_vec4 (fun k => State.written _ mixed k (o k)) hk⟩

/-! ## The obligation -/

/-- Settles O30: both additions, from the state their operands leave. -/
theorem floatTrap : Obligations.FloatTrap := by
  intro s fa fb fc hfc a b doubles o group swc entered
  have hmixed (h : doubles) : s.sumMixed fa fb = false := by simp [State.sumMixed, h.1, h.2]
  refine ⟨fun hp ho => ?faddd, fun hp ho => ?vaddd⟩
  case faddd =>
    obtain ⟨v, h, hv⟩ := arithEntry_finishScalar hfc ho (s.sumDraws fa fb) (s.sumMixed fa fb)
    refine ⟨_, exec_faddd fa fb hfc hp, h.entered, h.excSum, h.fpcr, fun hd hc => ?_⟩
    rw [hmixed hd, written_value _ 0 (.inl hc), ← h.dest] at hv
    exact hv
  case vaddd =>
    obtain ⟨v, h, hv⟩ := arithEntry_finishVector hfc ho (s.sumDraws fa fb) (s.sumMixed fa fb)
    refine ⟨_, exec_vaddd fa fb hfc hp, h.entered, h.excSum, h.fpcr.trans (or_groupBits _ _ _ _ _ _),
      fun hd k hk hc => ?_⟩
    have hkv := hv k hk
    rw [hmixed hd, written_value _ k hc, ← h.dest] at hkv
    exact hkv

end Sys2Proof.Machine
end

section
/-! What a data access records when its checks stop it, which checks the instructions that make one begin with, and the
faults of its address. -/

namespace Sys2Proof.Machine

/-! ## States that differ in the count of free values -/

/-- `u` is `s` but for how many free values have been drawn. -/
def State.SameButDraws (s u : State) : Prop := ∃ n, u = { s with draws := n }

theorem sameButDraws_refl (s : State) : s.SameButDraws s := ⟨s.draws, rfl⟩

theorem State.SameButDraws.drawn {s u : State} (h : s.SameButDraws u) : s.SameButDraws u.drawn := by
  obtain ⟨n, rfl⟩ := h
  exact ⟨n + 1, rfl⟩

theorem State.SameButDraws.noDataMatch {s u : State} (h : s.SameButDraws u) (hs : s.noDataMatch) : u.noDataMatch := by
  obtain ⟨n, rfl⟩ := h
  exact hs

theorem State.SameButDraws.signChecked {s u : State} (h : s.SameButDraws u) (q : MemReq) :
    u.signChecked q = s.signChecked q := by
  obtain ⟨n, rfl⟩ := h
  rfl

theorem State.SameButDraws.reaches {s u : State} (h : s.SameButDraws u) {q : MemReq} {pa : PAddr}
    (hs : s.reaches q pa) : u.reaches q pa := by
  obtain ⟨n, rfl⟩ := h
  exact hs

theorem State.SameButDraws.unanswered {s u : State} (h : s.SameButDraws u) (q : MemReq) (pa : PAddr) :
    u.unanswered q pa = s.unanswered q pa := by
  obtain ⟨n, rfl⟩ := h
  rfl

theorem sameButDraws_useV (s : State) (r : Reg) (k : DataKind) : s.SameButDraws (s.useV r k).2 :=
  ⟨_, useV_draws s r k⟩

theorem sameButDraws_useF (s : State) (r : Reg) (k : DataKind) : s.SameButDraws (s.useF r k).2 := by
  unfold State.useF
  split
  · exact sameButDraws_refl s
  · exact (sameButDraws_refl s).drawn

/-! ## What a data fault records -/

/-- The records of a data fault beside EXC_PC and DVA (R100, R607): WR of an atomic is open (U11). -/
def State.faultRecords (s t : State) (q : MemReq) (bits : Word) : Prop :=
  t.ebox = s.ebox ∧ t.ibox.iglInst = s.ibox.iglInst ∧ t.ibox.excSum = s.irRa.setWidth 64 <<< 8 ∧
    ∃ wr : Bool, (¬(q.reads = true ∧ q.writes = true) → wr = q.writes) ∧
      t.dbox.dsStat = bits ||| (s.irOp.setWidth 64 <<< 4) ||| (if wr then 1 else 0)

/-- `t` is `s` after the access `q` has faulted at offset `off`, with `bits` in DS_STAT and `dva` in DVA. -/
structure DataFault (s : State) (q : MemReq) (off : BitVec 16) (bits dva : Word) (t : State) : Prop where
  faults : s.faultsTo t off
  dva_eq : t.dbox.dva = dva
  records : s.faultRecords t q bits

/-- A data fault writes EXC_SUM, DS_STAT and DVA, and enters; of an atomic it draws WR (U11). -/
theorem raiseData_eq (s : State) (q : MemReq) (e : Exc) (bits dva : Word) :
    ∃ n, ∃ wr : Bool, (¬(q.reads = true ∧ q.writes = true) → wr = q.writes) ∧
      s.raiseData q e bits 0 dva =
        (((({ s with draws := n } : State).setExcSum 0 s.irRa).setDsStat bits wr).setDva dva).enter e s.pc := by
  cases ha : q.isAtomic with
  | false => exact ⟨s.draws, q.writes, fun _ => rfl, by simp [State.raiseData, ha]⟩
  | true =>
    have hrw : q.reads = true ∧ q.writes = true := by simpa [MemReq.isAtomic] using ha
    exact ⟨s.draws + 1, s.free.getLsbD 0, fun h => absurd hrw h, by simp [State.raiseData, ha, State.drawn]⟩

/-- Every data fault with no stray match bit is taken in one way (R590, R602, R607, R608). -/
theorem dataFault_raiseData {s u : State} (hu : s.SameButDraws u) (q : MemReq) (e : Exc) (bits dva : Word) :
    DataFault s q e.offset bits dva (u.raiseData q e bits 0 dva) := by
  obtain ⟨m, rfl⟩ := hu
  have hm := (entered_raiseData { s with draws := m } q e bits 0 dva).atEntry.mode
  obtain ⟨n, wr, hwr, ht⟩ := raiseData_eq { s with draws := m } q e bits dva
  rw [ht] at hm ⊢
  exact ⟨⟨rfl, hm, rfl, rfl, rfl⟩, rfl, rfl, rfl, BitVec.zero_or, wr, hwr, rfl⟩

/-- A fault that records the physical address. -/
theorem dataFault_raiseDataPhys {s u : State} (hu : s.SameButDraws u) (q : MemReq) (bits : Word) (pa : PAddr) :
    DataFault s q 0xC80 bits (u.dvaOfPhys pa) (u.raiseDataPhys q bits 0 pa) :=
  dataFault_raiseData hu.drawn q .dfault bits _

theorem extractLsb'_dvaOfPhys (s : State) (pa : PAddr) : (s.dvaOfPhys pa).extractLsb' 0 48 = pa := by
  rw [State.dvaOfPhys, BitVec.extractLsb'_append_eq_of_add_le (by omega), BitVec.extractLsb'_eq_self]

/-! ## The checks, one by one -/

section
variable {s : State} {q : MemReq}

theorem strayMask_noDataMatch (hn : s.noDataMatch) (early : Bool) : s.strayMask q early = 0 := by
  simp [State.strayMask, hn.2.2, flag]

theorem addressCheck_badSext (hn : s.noDataMatch) (hs : s.signChecked q = true) (hb : badSext q.va = true) :
    s.addressCheck q = some (s.raiseData q .dfault 0x800 0 q.va) := by
  rw [State.addressCheck, hs, hb, strayMask_noDataMatch hn]
  rfl

theorem addressCheck_unaligned (hn : s.noDataMatch) (hs : s.signChecked q = false ∨ badSext q.va = false)
    (ha : q.va.toNat % q.align ≠ 0) :
    s.addressCheck q = some
      (s.raiseData q .unalign (if q.elemAlign ≠ 0 ∧ q.va.toNat % q.elemAlign = 0 then 0x8000 else 0) 0 q.va) := by
  have hsb : (badSext q.va && s.signChecked q) = false := by cases hs <;> simp_all
  rw [State.addressCheck, hsb, strayMask_noDataMatch hn, if_neg (by decide), if_pos ha]
  simp only [flag, Bool.and_eq_true, decide_eq_true_eq]
  rfl

theorem addressCheck_none (hs : s.signChecked q = false ∨ badSext q.va = false) (ha : q.va.toNat % q.align = 0) :
    s.addressCheck q = none := by
  have hsb : (badSext q.va && s.signChecked q) = false := by cases hs <;> simp_all
  rw [State.addressCheck, hsb, if_neg (by decide), if_neg (not_not_intro ha)]

/-- An access that reaches an address passes the first two checks of R250 and is translated to it. -/
theorem checks_of_reaches {pa : PAddr} (h : s.reaches q pa) :
    s.addressCheck q = none ∧ s.translate q = .ok pa s := by
  obtain ⟨hs, ha, ht⟩ := h
  refine ⟨addressCheck_none hs ha, ?_⟩
  unfold State.translate
  split
  · rw [if_pos ‹_›] at ht
    rw [ht]
  · rw [if_neg ‹_›] at ht
    rw [ht]

/-- A miss of an ordinary access is the single one, by VA[52] (R602). -/
theorem translate_miss (hn : s.noDataMatch) (hy : q.bypasses = false) (hv : q.vpte = false)
    (hl : s.dtbLookup q.pm q.reads q.writes q.va = .miss) :
    s.translate q =
      .trap (s.raiseData q (if q.va.getLsbD 52 then .dtbmSingle1 else .dtbmSingle0) 0 0 q.va) := by
  simp only [State.translate, hy, hl, hv, strayMask_noDataMatch hn, Bool.false_eq_true, if_false]

/-- A denied access faults with its reasons (R286, R612). -/
theorem translate_denied (hn : s.noDataMatch) (hy : q.bypasses = false) {a fr fw : Bool}
    (hl : s.dtbLookup q.pm q.reads q.writes q.va = .denied a fr fw) :
    s.translate q = .trap (s.raiseData q .dfault (flag a 1 ||| flag fr 2 ||| flag fw 3) 0 q.va) := by
  simp only [State.translate, hy, hl, strayMask_noDataMatch hn, Bool.false_eq_true, if_false]

theorem translate_multiple (hy : q.bypasses = false) (hl : s.dtbLookup q.pm q.reads q.writes q.va = .multiple) :
    s.translate q = .stuck .dtbMultiHit := by
  simp only [State.translate, hy, hl, Bool.false_eq_true, if_false]

/-- With no data match enabled step 4 of R250 takes nothing. -/
theorem matchCheck_noDataMatch (hn : s.noDataMatch) (pa : PAddr) : s.matchCheck q pa = none := by
  obtain ⟨hr, hw, hv⟩ := hn
  have hd : s.daHit q pa = false := by simp only [State.daHit, hr, hw, Bool.false_and, Bool.or_false]
  have hdv : s.dvHit q (s.free.getLsbD 1) = false := by
    unfold State.dvHit
    split <;> simp [hv]
  simp only [State.matchCheck, hd, hdv, Bool.false_and, Bool.false_eq_true, if_false, ite_self]

/-- With no data match enabled the legality of the address comes next, whatever value would be compared, then the errors
reported with the data. -/
theorem accessCheck_noDataMatch (hn : s.noDataMatch) (x : StoreValue) (pa0 : PAddr) :
    s.accessCheck { q with value := x } pa0 =
      if q.classIllegal (alignDown pa0 q.block) then .trap (s.raiseData q .dfault 0x1000 0 q.va)
      else if s.unanswered q (alignDown pa0 q.block) then
        .trap ((s.answerError q (alignDown pa0 q.block)).raiseDataPhys q 0x1000 0 (alignDown pa0 q.block))
      else s.dataError { q with value := x } (alignDown pa0 q.block) := by
  simp only [State.accessCheck, matchCheck_noDataMatch hn, hn.2.2, Bool.false_and, Bool.false_eq_true, if_false]
  rfl

end

/-! ## The instructions that make a data access -/

/-- The outcome `r` follows the checks of `q` as far as they stop it: those of the address and of the translation from a
state `u`, then those of the physical address, which a lock store makes once it has drawn and with its value. -/
structure State.StoppedBy (s u : State) (q : MemReq) (r : Result) : Prop where
  address : ∀ t, u.addressCheck q = some t → r = .next t
  translation : u.addressCheck q = none → ∀ t, u.translate q = .trap t → r = .next t
  stuck : u.addressCheck q = none → ∀ f, u.translate q = .stuck f → r = .fault f
  access : u.addressCheck q = none → ∀ pa, u.translate q = .ok pa u →
    ∃ v x, s.SameButDraws v ∧ ∀ t, v.accessCheck { q with value := x } pa = .trap t → r = .next t

/-- The checks of `q` come before anything else the instruction does, after at most one free value. -/
def State.Checks (s : State) (q : MemReq) (r : Result) : Prop := ∃ u, s.SameButDraws u ∧ s.StoppedBy u q r

section
variable {s : State} {p p₀ : Pipe} {q q₀ : MemReq}

theorem checks_andThen {u : State} (hu : s.SameButDraws u) (q : MemReq) (run : PAddr → State → State) :
    s.Checks q ((u.check q).andThen run) := by
  refine ⟨u, hu, fun t h => ?_, fun ha t h => ?_, fun ha f h => ?_, fun ha pa h => ⟨u, q.value, hu, fun t ht => ?_⟩⟩
  · rw [State.check, h]
    rfl
  · rw [State.check, ha, h]
    rfl
  · rw [State.check, ha, h]
    rfl
  · have hc : u.check q = .trap t := by
      rw [State.check, ha, h]
      exact ht
    rw [hc]
    rfl

/-- An instruction that its unit lets pass goes on to its checks. -/
theorem checks_atDecode {r : Result} (h : some (p₀, q₀) = some (p, q)) (hp : s.passes p) (hc : s.Checks q₀ r) :
    s.Checks q (s.atDecode none p₀ r) := by
  obtain ⟨rfl, rfl⟩ := Prod.mk.injEq .. ▸ Option.some.inj h
  rwa [atDecode_run hp]

theorem checks_orNull {ra : Reg} {r : Result} (h : unlessNull ra p₀ q₀ = some (p, q)) (hp : s.passes p)
    (hc : s.Checks q₀ r) : s.Checks q (if ra = 31 then s.execNull else s.atDecode none p₀ r) := by
  unfold unlessNull at h
  split at h
  · cases h
  · rw [if_neg ‹_›]
    exact checks_atDecode h hp hc

theorem checks_inHm {r : Result} (h : s.inHm q₀ = some (p, q)) (hp : s.passes p) (hc : s.Checks q₀ r) :
    s.Checks q (s.atDecode s.privileged .int r) := by
  unfold State.inHm at h
  split at h
  · rw [State.privileged, if_pos ‹_›]
    exact checks_atDecode h hp hc
  · cases h

theorem checks_execIntLoad {ra : Reg} {n : Nat} {ext : Word → Word} (h : unlessNull ra .int q₀ = some (p, q))
    (hp : s.passes p) : s.Checks q (s.execIntLoad ra q₀ n ext) :=
  checks_orNull h hp (checks_andThen (sameButDraws_refl s) _ _)

theorem checks_execFloatLoad {fa : Reg} {n : Nat} {k : DataKind} {conv : Word → Word}
    (h : unlessNull fa .fp q₀ = some (p, q)) (hp : s.passes p) : s.Checks q (s.execFloatLoad fa q₀ n k conv) :=
  checks_orNull h hp (checks_andThen (sameButDraws_refl s) _ _)

theorem checks_execVecLoad {fa : Reg} {n : Nat} {k : DataKind} {conv : Vec → Vec}
    (h : unlessNull fa .simd q₀ = some (p, q)) (hp : s.passes p) : s.Checks q (s.execVecLoad fa q₀ n k conv) :=
  checks_orNull h hp (checks_andThen (sameButDraws_refl s) _ _)

/-- A store of what an integer register holds. -/
theorem checks_intStore {n : Nat} {v : Vec} (h : some (.int, q₀) = some (p, q)) (hp : s.passes p) :
    s.Checks q (s.atDecode none .int (s.execStore q₀ n v)) :=
  checks_atDecode h hp (checks_andThen (sameButDraws_refl s) _ _)

theorem checks_execFloatStore {fa : Reg} {va : Word} {n : Nat} {cls : MemClass} {k : DataKind} {conv : Word → Word}
    (h : some (.fp, s.storeReq va n cls (conv (s.useF fa k).1)) = some (p, q)) (hp : s.passes p) :
    s.Checks q (s.execFloatStore fa va n cls k conv) :=
  checks_atDecode h hp (checks_andThen (sameButDraws_useF s fa k) _ _)

theorem checks_execVecStore {fa : Reg} {n : Nat} {k : DataKind} {conv : Vec → Vec}
    (h : some (.simd, q₀.comparing n (conv (s.useV fa k).1)) = some (p, q)) (hp : s.passes p) :
    s.Checks q (s.execVecStore fa q₀ n k conv) :=
  checks_atDecode h hp (checks_andThen (sameButDraws_useV s fa k) _ _)

/-- A store wider than 8 bytes keeps its value match open (U13). -/
theorem checks_wideStore {fa : Reg} {n : Nat} {k : DataKind} {conv : Vec → Vec} (hn : 8 < n)
    (hv : q₀.value = .free) (h : some (.simd, q₀) = some (p, q)) (hp : s.passes p) :
    s.Checks q (s.execVecStore fa q₀ n k conv) := by
  refine checks_execVecStore ?_ hp
  rwa [MemReq.comparing, if_neg (by omega), ← hv]

theorem checks_execStoreLow {fa : Reg} {va : Word} {b align : Nat} {k : DataKind} {conv : Vec → Vec}
    (h : some (.simd, s.lowReq va b align (conv (s.useV fa k).1)) = some (p, q)) (hp : s.passes p) :
    s.Checks q (s.execStoreLow fa va b align k conv) := by
  unfold State.execStoreLow
  exact checks_execVecStore h hp

theorem checks_execStoreHigh {fa : Reg} {va : Word} {b align : Nat} {k : DataKind} {conv : Vec → Vec}
    (h : some (.simd, s.highReq va b align (conv (s.useV fa k).1)) = some (p, q)) (hp : s.passes p) :
    s.Checks q (s.execStoreHigh fa va b align k conv) := by
  unfold State.execStoreHigh
  exact checks_execVecStore h hp

theorem checks_execAtomic {ra : Reg} {va : Word} {n : Nat} {op : AtomicOp}
    (h : some (.int, s.atomicReq va n) = some (p, q)) (hp : s.passes p) : s.Checks q (s.execAtomic ra va n op) :=
  checks_atDecode h hp (checks_andThen (sameButDraws_refl s) _ _)

theorem checks_execLockLoad {ra : Reg} {va : Word} {n : Nat}
    (h : some (.int, s.lockReq va n false .none) = some (p, q)) (hp : s.passes p) :
    s.Checks q (s.execLockLoad ra va n) :=
  checks_atDecode h hp (checks_andThen (sameButDraws_refl s) _ _)

/-- A lock store in its place: the checks of the physical address come after the draw, and the value that the match sees
depends on it (R504, R704). -/
theorem checks_execLockStore {ra : Reg} {va : Word} {n : Nat}
    (h : s.inPlace (s.lockReq va n true .free) = some (p, q)) (hp : s.passes p) :
    s.Checks q (s.execLockStore ra va n) := by
  unfold State.inPlace at h
  split at h
  case isFalse => cases h
  case isTrue hi =>
    unfold State.execLockStore
    rw [hi]
    refine checks_atDecode h hp ⟨s, sameButDraws_refl s, fun t ht => ?_, fun ha t ht => ?_, fun ha f hf => ?_,
      fun ha pa hpa => ⟨s.drawn, if s.lockHolds pa n && s.free.getLsbD 0 then .bytes n (s.readReg ra) else .free,
        (sameButDraws_refl s).drawn, fun t ht => ?_⟩⟩
    · rw [ht]
    · rw [ha, ht]
    · rw [ha, hf]
    · rw [ha, hpa]
      exact congrArg (Checked.andThen · _) ht

theorem checks_execPriLoad {ra : Reg} {n : Nat} (h : s.loadInHm ra q₀ = some (p, q)) (hp : s.passes p) :
    s.Checks q (s.execPriLoad ra q₀ n) := by
  unfold State.loadInHm at h
  split at h
  · cases h
  · rw [State.execPriLoad, if_neg ‹_›]
    exact checks_inHm h hp (checks_andThen (sameButDraws_refl s) _ _)

theorem checks_execPriStore {n : Nat} {v : Word} (h : s.inHm q₀ = some (p, q)) (hp : s.passes p) :
    s.Checks q (s.execPriStore q₀ n v) := checks_inHm h hp (checks_andThen (sameButDraws_refl s) _ _)

theorem checks_execPriAtomic {ra rb : Reg} {d : BitVec 12} {n : Nat} {op : AtomicOp}
    (h : s.inHm (s.atomicReq (s.priAddr rb d n) n).physical = some (p, q)) (hp : s.passes p) :
    s.Checks q (s.execPriAtomic ra rb d n op) := checks_inHm h hp (checks_andThen (sameButDraws_refl s) _ _)

end

/-- Every instruction with a data access begins, past its decode stage, with the checks of that access. -/
theorem exec_checks {s : State} {i : Instr} {p : Pipe} {q : MemReq} (h : s.dataReq i = some (p, q))
    (hp : s.passes p) : s.Checks q (exec i s) := by
  cases i with
  | ldbu | ldhu | ldw | ldl | ldlU | ldwNc | ldlNc => exact checks_execIntLoad h hp
  | flds | fldd | lddNc => exact checks_execFloatLoad h hp
  | ldwe | ldse | ldde | vlds | vldd | vldwU | vldsU | vlddU | vlddNc => exact checks_execVecLoad h hp
  | stb | sth | stw | stl | stlU | stwNc | stlNc => exact checks_intStore h hp
  | fsts | fstd | stdNc => exact checks_execFloatStore h hp
  | vsts | vstd | vstwU | vstsU | vstdU | vstdNc => exact checks_wideStore (by decide) rfl h hp
  | vstwUl | vstsUl | vstdUl => exact checks_execStoreLow h hp
  | vstwUh | vstsUh | vstdUh => exact checks_execStoreHigh h hp
  | ldwInc | ldwDec | ldwSet | ldlInc | ldlDec | ldlSet => exact checks_execAtomic h hp
  | lldw | lldl => exact checks_execLockLoad h hp
  | lstw | lstl => exact checks_execLockStore h hp
  | priLdwP | priLdlP | priLdwV | priLdlV | priLdwVpte | priLdlVpte => exact checks_execPriLoad h hp
  | priStwP | priStlP | priStwV | priStlV => exact checks_execPriStore h hp
  | priLdwIncP | priLdlIncP | priLdwDecP | priLdlDecP | priLdwSetP | priLdlSetP => exact checks_execPriAtomic h hp
  | _ => cases h

/-! ## The legality of the physical address -/

/-- The class of the access may not use the address (R241, R424, R613). -/
theorem classIllegal_iff (q : MemReq) (pa : PAddr) : q.classIllegal pa = true ↔
    (pa.getLsbD 47 = true ∧ (q.cls = .vector ∨ q.cls = .atomic ∨ q.cls = .nonCache)) ∨
      (q.cls = .lock ∧ (pa.getLsbD 47 = true ∨ pa.getLsbD 46 = true)) := by
  unfold MemReq.classIllegal isIo
  cases q.cls <;> simp

/-- Nothing answers beyond memory: a read, or a cacheable write, whose line is read first (R242, R613). -/
theorem unanswered_beyond {s : State} {q : MemReq} {pa : PAddr} (hio : ¬pa.getLsbD 47 = true)
    (hm : s.plat.memSize < loc pa + q.size)
    (hq : q.reads = true ∨ (q.cls ≠ .nonCache ∧ pa.getLsbD 46 = false)) : s.unanswered q pa = true := by
  have hx : s.memExists pa q.size = false := decide_eq_false (by omega)
  rw [State.unanswered, isIo, if_neg hio, hx]
  obtain hr | ⟨hc, h46⟩ := hq
  · simp [hr]
  · have hnc : (q.cls == .nonCache) = false := beq_false_of_ne hc
    simp only [isNc, hnc, h46, Bool.or_false, Bool.not_false, Bool.or_true, Bool.and_self]

/-- Nothing answers an I/O read where no register stands (R242, R613). -/
theorem unanswered_noRegister {s : State} {q : MemReq} {pa : PAddr} (hio : pa.getLsbD 47 = true)
    (hr : q.reads = true) (hn : s.iorAt pa = none) : s.unanswered q pa = true := by
  rw [State.unanswered, isIo, if_pos hio, hr, hn]
  rfl

/-- CTL_ERR_RQ1_ACK asks for the machine check and is reported outside, where its report is on (R167, R328, R337). -/
theorem scError_fourteen (s : State) : s.scError 14 =
    if s.sbox.scCtl.getLsbD 18 then ((s.setScStat 14).mchkRequest).send .hardwareFault else s := by
  have hbit : scEnableBit 14 = 18 := rfl
  have hack : scNeedsAckCheck 14 = false := rfl
  have hcorr : scCorrected 14 = false := rfl
  have hmulti : scMultiBit 14 = false := rfl
  have hsoft : scSoftwareFault 14 = false := rfl
  have hhard : scHardwareFault 14 = true := rfl
  simp only [State.scError, hbit, hack, hcorr, hmulti, hsoft, hhard, Bool.false_and, Bool.or_false, Bool.not_eq_true',
    Bool.false_eq_true, if_false, if_true, show ¬30 ≤ 14 by omega, show ¬14 = 12 by omega]
  cases s.sbox.scCtl.getLsbD 18 <;> rfl

/-- `u` is `s` but for the count of free values and the records of CTL_ERR_RQ1_ACK: the bit of SC_STAT, the machine check
asked for and the notice sent (R167, R328). -/
def State.ErrorAnswered (s u : State) : Prop := ∃ n pending outputs, u =
  { s with
    draws := n
    ibox := { s.ibox with pending := pending }
    outputs := outputs
    sbox := { s.sbox with scStat := if s.sbox.scCtl.getLsbD 18 then s.sbox.scStat ||| 0x4000 else s.sbox.scStat } }

theorem errorAnswered_scError {s u : State} (hu : s.SameButDraws u) : s.ErrorAnswered (u.scError 14) := by
  obtain ⟨n, rfl⟩ := hu
  rw [scError_fourteen]
  unfold State.ErrorAnswered
  dsimp only
  cases s.sbox.scCtl.getLsbD 18 with
  | false => exact ⟨n, s.ibox.pending, s.outputs, rfl⟩
  | true => exact ⟨n, _, _, rfl⟩

/-- The fault of an access that nothing answers, after the record of the error response: the physical address in DVA, the
entry and its records, and SC_STAT (R167, R242, R608). -/
theorem answeredFault {s u : State} (hu : s.ErrorAnswered u) (q : MemReq) (pa : PAddr) :
    let t := u.raiseDataPhys q 0x1000 0 pa
    t.pc = entryAddr s.ibox.priBase 0xC80 ∧ t.ibox.excPc = sext53 s.pc ∧ t.dbox.dva.extractLsb' 0 48 = pa ∧
      s.faultRecords t q 0x1000 ∧
      t.sbox.scStat = (if s.sbox.scCtl.getLsbD 18 then s.sbox.scStat ||| 0x4000 else s.sbox.scStat) ∧
      t.gpr = s.gpr ∧ t.sr = s.sr ∧ t.vr = s.vr ∧ t.fpcr = s.fpcr ∧ t.mem = s.mem ∧
      t.lock = { s.lock with valid := false, flag := false } := by
  obtain ⟨⟨hpc, -, hexc, hlock, hsame⟩, hdva, hrec⟩ := dataFault_raiseDataPhys (sameButDraws_refl u) q 0x1000 pa
  dsimp only
  generalize u.raiseDataPhys q 0x1000 0 pa = t at *
  have hd : t.dbox.dva.extractLsb' 0 48 = pa := by rw [hdva, extractLsb'_dvaOfPhys]
  rw [State.sameButRecords] at hsame
  obtain ⟨n, pending, outputs, rfl⟩ := hu
  refine ⟨hpc, hexc, hd, hrec, ?_, ?_, ?_, ?_, ?_, ?_, hlock⟩ <;> rw [hsame]

theorem answerError_plain {s : State} {q : MemReq} {pa : PAddr} (hio : ¬pa.getLsbD 47 = true)
    (ha : ¬(q.reads = true ∧ q.writes = true)) : s.answerError q pa = s := by
  refine if_neg ?_
  rw [isIo, MemReq.isAtomic, Bool.or_eq_true, Bool.and_eq_true]
  exact not_or.mpr ⟨hio, ha⟩

theorem answerError_recorded {s : State} {q : MemReq} {pa : PAddr}
    (h : pa.getLsbD 47 = true ∨ (q.reads = true ∧ q.writes = true)) : s.answerError q pa = s.scError 14 :=
  if_pos (by simpa [isIo, MemReq.isAtomic] using h)

/-! ## The obligation -/

/-- Settles O45: the checks of every access, in their order, up to the legality of its physical address. -/
theorem addressFaults : Obligations.AddressFaults := by
  intro s i p q hd hp hn records
  obtain ⟨u, hu, hstop⟩ := exec_checks hd hp
  refine ⟨fun hs hb => ?sign, fun hs ha => ?unaligned, ?reached⟩
  case sign =>
    have hf := dataFault_raiseData hu q .dfault 0x800 q.va
    exact ⟨_, hstop.address _ (addressCheck_badSext (hu.noDataMatch hn) (hu.signChecked q ▸ hs) hb), hf.faults, hf.dva_eq,
      hf.records⟩
  case unaligned =>
    have hf := dataFault_raiseData hu q .unalign
      (if q.elemAlign ≠ 0 ∧ q.va.toNat % q.elemAlign = 0 then 0x8000 else 0) q.va
    exact ⟨_, hstop.address _ (addressCheck_unaligned (hu.noDataMatch hn) (hu.signChecked q ▸ hs) ha), hf.faults,
      hf.dva_eq, hf.records⟩
  case reached =>
    intro pa0 hr _ pa io banned beyond noReg
    obtain ⟨hnone, htr⟩ := checks_of_reaches (hu.reaches hr)
    obtain ⟨v, x, hv, hacc⟩ := hstop.access hnone pa0 htr
    rw [accessCheck_noDataMatch (hv.noDataMatch hn)] at hacc
    have hsilent (hb : ¬banned) (hun : s.unanswered q pa = true) :
        exec i s = .next ((v.answerError q pa).raiseDataPhys q 0x1000 0 pa) :=
      hacc _ ((if_neg fun hc => hb ((classIllegal_iff q pa).mp hc)).trans (if_pos ((hv.unanswered q pa).trans hun)))
    refine ⟨fun hb => ?_, fun hb ⟨hio, hm, hq⟩ ha => ?_, fun hb h => ?_⟩
    · have hf := dataFault_raiseData hv q .dfault 0x1000 q.va
      exact ⟨_, hacc _ (if_pos ((classIllegal_iff q pa).mpr hb)), hf.faults, hf.dva_eq, hf.records⟩
    · have hf := dataFault_raiseDataPhys hv q 0x1000 pa
      have hx := hsilent hb (unanswered_beyond hio hm hq)
      rw [answerError_plain hio ha] at hx
      exact ⟨_, hx, hf.faults, (congrArg _ hf.dva_eq).trans (extractLsb'_dvaOfPhys v pa), hf.records⟩
    · have hun : s.unanswered q pa = true := by
        obtain ⟨hio, hrd, hi⟩ | ⟨⟨hio, hm, hq⟩, -⟩ := h
        · exact unanswered_noRegister hio hrd hi
        · exact unanswered_beyond hio hm hq
      have hx := hsilent hb hun
      rw [answerError_recorded (h.imp (fun h => h.1) fun h => h.2)] at hx
      exact ⟨_, hx, answeredFault (errorAnswered_scError hv) q pa⟩

end Sys2Proof.Machine
end

section
/-! The barriers, the reads of counter and identity, and the cache control instructions. -/

namespace Sys2Proof.Machine

/-! ## Barriers and identity -/

/-- With SC_CTL[IC_COH_EN] = 0 a MEMB leaves every line of the instruction cache (R279). -/
theorem icacheAfterMemb_keeps {s : State} (h : s.sbox.scCtl.getLsbD 20 = false) : s.icacheAfterMemb = s.icache := by
  rw [State.icacheAfterMemb, h]
  rfl

/-- With SC_CTL[IC_COH_EN] = 1 a line stays only if it holds no byte of a store that the MEMB has ordered (R279). -/
theorem mem_icacheAfterMemb {s : State} (h : s.sbox.scCtl.getLsbD 20 = true) {l : ICacheLine} :
    l ∈ s.icacheAfterMemb ↔
      l ∈ s.icache ∧ ∀ o ∈ s.codeHist, o.stage = .stored → l.covers o.addr o.size = false := by
  rw [State.icacheAfterMemb, if_pos h, List.mem_filter]
  simp

/-- Settles O23: none of the five has a check but the address match. -/
theorem barriersAndIdentity : Obligations.BarriersAndIdentity := by
  intro s ra rb ha
  have run (r : Result) : s.atDecode none .int r = r := atDecode_run (passes_int ha) r
  exact ⟨run _, icacheAfterMemb_keeps, fun h l => (mem_icacheAfterMemb h).mp, run _, run _, run _, run _⟩

/-! ## Cache control: the instructions and their rules -/

/-- What FETCHD and FETCHD_E do about faults (R471, R478). -/
def State.fetchRule (s : State) : LineRule := { miss := s.dbox.dcCtl.getLsbD 16, denied := false, fills := true }

/-- What FLUSHD does about faults (R472). -/
def flushRule : LineRule := { miss := true, denied := true, legal := true, leaves := true }

section
variable {s : State} {rb : Reg} {d : BitVec 16}

/-- No address match, and CP_CTL turns the instruction on (R169, R472 to R474). -/
def State.lineOn (s : State) (rb : Reg) (d : BitVec 16) (i : Instr) : Prop :=
  s.iaMatch = false ∧ (i = .flushd rb d ∨ i = .evictdl rb d → s.sbox.cpCtl.getLsbD 3 = true) ∧
    (i = .evictdg rb d → s.sbox.cpCtl.getLsbD 4 = true)

theorem cpIllegal_none {k : Nat} (h : s.sbox.cpCtl.getLsbD k = true) : s.cpIllegal k = none := if_pos h

theorem cpIllegal_some {k : Nat} (h : s.sbox.cpCtl.getLsbD k = false) : s.cpIllegal k = some false := by
  rw [State.cpIllegal, h]
  rfl

/-- The two data-fill instructions do the same. -/
theorem exec_fetch {i : Instr} (hi : i ∈ ([.fetchd rb d, .fetchdE rb d] : List Instr)) :
    exec i s = s.execLine rb d none s.fetchRule := by
  simp only [List.mem_cons, List.not_mem_nil, or_false] at hi
  obtain rfl | rfl := hi <;> rfl

theorem exec_flush (hon : s.lineOn rb d (.flushd rb d)) : exec (.flushd rb d) s = s.execLine rb d none flushRule :=
  congrArg (s.execLine rb d · flushRule) (cpIllegal_none (hon.2.1 (.inl rfl)))

/-- The two evictions do the same where they are on. -/
theorem exec_evict {i : Instr} (hi : i ∈ ([.evictdl rb d, .evictdg rb d] : List Instr)) (hon : s.lineOn rb d i) :
    exec i s = s.execLine rb d none s.evictRule := by
  simp only [List.mem_cons, List.not_mem_nil, or_false] at hi
  obtain rfl | rfl := hi
  · exact congrArg (s.execLine rb d · s.evictRule) (cpIllegal_none (hon.2.1 (.inr rfl)))
  · exact congrArg (s.execLine rb d · s.evictRule) (cpIllegal_none (hon.2.2 rfl))

/-- Each of the five runs by some rule. -/
theorem exec_line {i : Instr} (hi : i ∈ ([.fetchd rb d, .fetchdE rb d] ++ [.evictdl rb d, .evictdg rb d] ++
    [.flushd rb d] : List Instr)) (hon : s.lineOn rb d i) : ∃ f, exec i s = s.execLine rb d none f := by
  rw [List.mem_append, List.mem_append, List.mem_singleton] at hi
  obtain (hi | hi) | rfl := hi
  · exact ⟨_, exec_fetch hi⟩
  · exact ⟨_, exec_evict hi hon⟩
  · exact ⟨_, exec_flush hon⟩

/-! ## Cache control: the address and its translation -/

variable (f : LineRule)

theorem execLine_badSext (ha : s.iaMatch = false) (hn : s.noDataMatch) (hb : badSext (s.lineReq rb d).va = true) :
    s.execLine rb d none f =
      .next (s.raiseData (s.lineReq rb d) .dfault 0x800 0 (s.lineReq rb d).va) := by
  rw [State.execLine, atDecode_run (passes_int ha), addressCheck_badSext hn rfl hb]

/-- A line needs no alignment (R470). -/
theorem addressCheck_line (hb : badSext (s.lineReq rb d).va = false) : s.addressCheck (s.lineReq rb d) = none :=
  addressCheck_none (.inr hb) (Nat.mod_one _)

theorem execLine_reaches (ha : s.iaMatch = false) {pa : PAddr} (h : s.reaches (s.lineReq rb d) pa) :
    s.execLine rb d none f = s.execLineAt (s.lineReq rb d) f pa := by
  rw [State.execLine, atDecode_run (passes_int ha), (checks_of_reaches h).1, (checks_of_reaches h).2]

/-- A translation fault is taken or dropped, as the rule says (R471, R472, R475). -/
theorem execLine_trap (ha : s.iaMatch = false) (hb : badSext (s.lineReq rb d).va = false) {t : State}
    (ht : s.translate (s.lineReq rb d) = .trap t) :
    s.execLine rb d none f =
      .next (if f.takes (s.dtbLookup (s.lineReq rb d).pm true false (s.lineReq rb d).va) then t else s.advance) := by
  rw [State.execLine, atDecode_run (passes_int ha), addressCheck_line hb, ht]

theorem execLine_stuck (ha : s.iaMatch = false) (hb : badSext (s.lineReq rb d).va = false) {x : Fault}
    (ht : s.translate (s.lineReq rb d) = .stuck x) : s.execLine rb d none f = .fault x := by
  rw [State.execLine, atDecode_run (passes_int ha), addressCheck_line hb, ht]

/-- A DTB miss (R471, R472, R475). -/
theorem execLine_miss (ha : s.iaMatch = false) (hn : s.noDataMatch) (hb : badSext (s.lineReq rb d).va = false)
    (hy : (s.lineReq rb d).bypasses = false)
    (hl : s.dtbLookup (s.lineReq rb d).pm true false (s.lineReq rb d).va = .miss) :
    s.execLine rb d none f = .next
      (if f.miss then s.raiseData (s.lineReq rb d)
          (if (s.lineReq rb d).va.getLsbD 52 then .dtbmSingle1 else .dtbmSingle0) 0 0 (s.lineReq rb d).va
        else s.advance) := by
  rw [execLine_trap f ha hb (translate_miss hn hy rfl hl), hl]
  rfl

/-- A denied access (R471, R472, R475). -/
theorem execLine_denied (ha : s.iaMatch = false) (hn : s.noDataMatch) (hb : badSext (s.lineReq rb d).va = false)
    (hy : (s.lineReq rb d).bypasses = false) {a fr fw : Bool}
    (hl : s.dtbLookup (s.lineReq rb d).pm true false (s.lineReq rb d).va = .denied a fr fw) :
    s.execLine rb d none f = .next
      (if f.denied then
          s.raiseData (s.lineReq rb d) .dfault (flag a 1 ||| flag fr 2 ||| flag fw 3) 0 (s.lineReq rb d).va
        else s.advance) := by
  rw [execLine_trap f ha hb (translate_denied hn hy hl), hl]
  rfl

/-! ## Cache control: the line -/

theorem uncached_line (pa : PAddr) :
    (s.lineReq rb d).uncached pa = false ↔ pa.getLsbD 47 = false ∧ pa.getLsbD 46 = false :=
  Bool.or_eq_false_iff

theorem unanswered_line {pa : PAddr} (hio : pa.getLsbD 47 = false) :
    s.unanswered (s.lineReq rb d) pa = decide (s.plat.memSize < loc pa + 128) := by
  rw [State.unanswered, isIo, hio, if_neg (by decide)]
  simp only [State.memExists, State.lineReq, Bool.true_or, Bool.and_true]
  exact (decide_not ..).symm.trans (decide_eq_decide.mpr Nat.not_le)

/-- Outside cacheable space the instruction is null (R470). -/
theorem execLineAt_uncached {q : MemReq} {pa : PAddr} (h : q.uncached pa = true) :
    s.execLineAt q f pa = .next s.advance := if_pos h

/-- The address match of a read, with no joined match (R703, R705). -/
theorem execLineAt_daHit {q : MemReq} {pa : PAddr} (hc : q.uncached pa = false) (hv : q.value = .none)
    (hj : s.davEn = false) (hd : s.daHit q pa = true) :
    s.execLineAt q f pa = .next (s.raiseData q .dfault 0x2000 0 q.va) := by
  have hm : s.matchCheck q pa = some (s.raiseData q .dfault 0x2000 0 q.va) := by
    have hdv : s.dvHit q (s.free.getLsbD 1) = false := by rw [State.dvHit, hv]
    have hbits : flag true 13 ||| flag false 19 ||| flag false 20 = 0x2000 := rfl
    simp only [State.matchCheck, hdv, hv, hj, hd, hbits, reduceCtorEq, decide_false, Bool.and_false, Bool.false_eq_true,
      if_false, if_true]
  rw [State.execLineAt, hc, hm, if_neg (by decide)]

/-- In cacheable space, with no data match enabled: the legality of the address, the answer to an eviction, the effect. -/
theorem execLineAt_cached {q : MemReq} {pa : PAddr} (hn : s.noDataMatch) (hc : q.uncached pa = false) :
    s.execLineAt q f pa =
      if f.legal && s.unanswered q pa then .next (s.raiseDataPhys q 0x1000 0 pa)
      else (if f.answer then s.evictAnswer q pa else .ok pa s).andThen fun p t => (t.lineEffect f p).advance := by
  rw [State.execLineAt, hc, matchCheck_noDataMatch hn, if_neg (by decide)]
  rfl

/-- FETCHD and FETCHD_E may bring the line in, and complete (R470, R471). -/
theorem execLineAt_fetch {q : MemReq} {pa : PAddr} (hn : s.noDataMatch) (hc : q.uncached pa = false) :
    s.execLineAt q s.fetchRule pa = .next (s.fillLine (loc pa)).advance :=
  execLineAt_cached s.fetchRule hn hc

theorem execLineAt_flush {q : MemReq} {pa : PAddr} (hn : s.noDataMatch) (hc : q.uncached pa = false) :
    s.execLineAt q flushRule pa =
      if s.unanswered q pa then .next (s.raiseDataPhys q 0x1000 0 pa)
      else .next (s.flushLine (loc pa / 128)).advance :=
  execLineAt_cached flushRule hn hc

/-- An eviction takes the answer's errors with EVICTD_ERR_EN = 1 only (R475). -/
theorem execLineAt_evict {q : MemReq} {pa : PAddr} (hn : s.noDataMatch) (hc : q.uncached pa = false) :
    s.execLineAt q s.evictRule pa =
      (if s.dbox.dcCtl.getLsbD 5 then s.evictAnswer q pa else .ok pa s).andThen fun p t =>
        (t.lineEffect s.evictRule p).advance :=
  execLineAt_cached s.evictRule hn hc

theorem evictAnswer_unanswered {q : MemReq} {pa : PAddr} (hu : s.unanswered q pa = true) :
    s.evictAnswer q pa = .trap ((s.scError 14).raiseDataPhys q 0x1000 0 pa) := if_pos hu

theorem evictAnswer_ok {q : MemReq} {pa : PAddr} (hu : s.unanswered q pa = false) (ha : s.armed = none) :
    s.evictAnswer q pa = .ok pa s := by
  rw [State.evictAnswer, hu, ha]
  rfl

/-- What a fetch of a line leaves: the registers and the lock (R470). -/
theorem fillLine_frame (s : State) (a : Nat) :
    (s.fillLine a).pc = s.pc ∧ (s.fillLine a).gpr = s.gpr ∧ (s.fillLine a).sr = s.sr ∧ (s.fillLine a).vr = s.vr ∧
      (s.fillLine a).fpcr = s.fpcr ∧ (s.fillLine a).lock = s.lock := by
  have h := withoutMemory_fillLine s a
  have field {α : Type} (f : State → α) : f (s.fillLine a).withoutMemory = f s.withoutMemory := congrArg f h
  exact ⟨field State.pc, field State.gpr, field State.sr, field State.vr, field State.fpcr, field State.lock⟩

end

/-! ## Cache control: what its faults record -/

/-- A fault of a cache control instruction: it reads, so WR is 0 (R607). -/
def State.lineFault (s t : State) (off : BitVec 16) (dva : Word → Prop) (bits : Word) : Prop :=
  s.faultsTo t off ∧ dva t.dbox.dva ∧ t.ebox = s.ebox ∧ t.ibox.iglInst = s.ibox.iglInst ∧
    t.ibox.excSum = s.irRa.setWidth 64 <<< 8 ∧ t.dbox.dsStat = bits ||| (s.irOp.setWidth 64 <<< 4)

theorem lineFault_of_dataFault {s t : State} {rb : Reg} {d : BitVec 16} {off : BitVec 16} {bits x : Word}
    {dva : Word → Prop} (h : DataFault s (s.lineReq rb d) off bits x t) (hd : dva x) :
    s.lineFault t off dva bits := by
  obtain ⟨hf, rfl, he, hi, hs, wr, hwr, hds⟩ := h
  obtain rfl : wr = false := hwr fun h => Bool.false_ne_true h.2
  exact ⟨hf, hd, he, hi, hs, hds.trans BitVec.or_zero⟩

theorem lineFault_raiseData (s : State) (rb : Reg) (d : BitVec 16) (e : Exc) (bits : Word) :
    s.lineFault (s.raiseData (s.lineReq rb d) e bits 0 (s.lineReq rb d).va) e.offset
      (fun x => x = (s.lineReq rb d).va) bits :=
  lineFault_of_dataFault (dataFault_raiseData (sameButDraws_refl s) _ _ _ _) rfl

theorem offset_single (b : Bool) :
    (if b then Exc.dtbmSingle1 else Exc.dtbmSingle0).offset = if b then (0x900 : BitVec 16) else 0x880 := by
  cases b <;> rfl

theorem denied_bits (a fr : Bool) :
    flag a 1 ||| flag fr 2 ||| flag false 3 = (if a then (2 : Word) else 0) ||| (if fr then (4 : Word) else 0) := by
  cases a <;> cases fr <;> rfl

/-- OPCDEC of a cache control instruction that is turned off (R169, R472 to R474, R620). -/
theorem raiseOpcdec_faults (s : State) :
    let t := s.raiseOpcdec false
    s.faultsTo t 0xD80 ∧ t.dbox = s.dbox ∧ t.ebox = s.ebox ∧ t.ibox.iglInst = s.ir.setWidth 64 :=
  ⟨⟨rfl, (entered_raiseOpcdec s false).atEntry.mode, rfl, rfl, rfl⟩, rfl, rfl, BitVec.zero_or⟩

section
variable {s : State} {rb : Reg} {d : BitVec 16} {pa : PAddr}

/-- An access that reads an address and needs no alignment reaches it as it is or by the DTB. -/
theorem reaches_line (h : badSext (s.lineReq rb d).va = false ∧
    (((s.lineReq rb d).bypasses = true ∧ pa = (s.lineReq rb d).va.setWidth 48) ∨
      ((s.lineReq rb d).bypasses = false ∧
        s.dtbLookup (s.lineReq rb d).pm true false (s.lineReq rb d).va = .pa pa))) :
    s.reaches (s.lineReq rb d) pa := by
  refine ⟨.inr h.1, Nat.mod_one _, ?_⟩
  obtain ⟨hy, hp⟩ | ⟨hy, hp⟩ := h.2
  · rwa [if_pos hy]
  · rw [hy]
    exact hp

/-- What an eviction leaves with no error in the data cache: the line clean, and in memory (R475; log 45). -/
theorem lineEffect_evict (h : s.dcErrors = []) (pa : PAddr) :
    (s.lineEffect s.evictRule pa).advance =
      { s with
        pc := s.pc + 4
        dcDirty := s.dcDirty.filter fun l => l != loc pa / 128
        unflushed := s.unflushed.filter fun a => decide (a < loc pa) || decide (loc pa + 128 ≤ a) } := by
  rw [State.lineEffect]
  simp only [State.evictRule, if_true, flushLine_none h]
  rfl

end

/-- The instruction faults, with the records of a cache control instruction. -/
def State.lineFaults (s : State) (i : Instr) (off : BitVec 16) (dva : Word → Prop) (bits : Word) : Prop :=
  ∃ t, exec i s = .next t ∧ s.lineFault t off dva bits

/-- A fault that is taken where `c` holds is dropped where it does not. -/
theorem dropped_or_taken {s t : State} {i : Instr} {c : Bool} {off : BitVec 16} {dva : Word → Prop} {bits : Word}
    (hx : exec i s = .next (if c then t else s.advance)) (hf : s.lineFault t off dva bits) :
    (c = false → exec i s = .next s.advance) ∧ (c = true → s.lineFaults i off dva bits) := by
  cases c with
  | false => exact ⟨fun _ => hx, nofun⟩
  | true => exact ⟨nofun, fun _ => ⟨t, hx, hf⟩⟩

/-! ## Cache control: a line in cacheable space -/

section
variable {s : State} {rb : Reg} {d : BitVec 16} {pa : PAddr} {i : Instr} (hn : s.noDataMatch)
  (hr : s.reaches (s.lineReq rb d) pa) (hc : pa.getLsbD 47 = false ∧ pa.getLsbD 46 = false) (hon : s.lineOn rb d i)
include hn hr hc hon

/-- A data-fill instruction completes (R470, R471). -/
theorem exec_fetch_cached (hi : i ∈ ([.fetchd rb d, .fetchdE rb d] : List Instr)) :
    exec i s = .next (s.fillLine (loc pa)).advance := by
  rw [exec_fetch hi, execLine_reaches _ hon.1 hr, execLineAt_fetch hn ((uncached_line pa).mpr hc)]

/-- A flush takes an illegal address as a load does; else the line leaves the data cache (R472). -/
theorem exec_flush_cached (hi : i = .flushd rb d) :
    exec i s =
      if s.plat.memSize < loc pa + 128 then .next (s.raiseDataPhys (s.lineReq rb d) 0x1000 0 pa)
      else .next (s.flushLine (loc pa / 128)).advance := by
  subst hi
  rw [exec_flush hon, execLine_reaches _ hon.1 hr, execLineAt_flush hn ((uncached_line pa).mpr hc),
    unanswered_line hc.1]
  simp only [decide_eq_true_eq]

/-- An eviction takes its effect where the answer's errors are not taken, or where there are none (R475). -/
theorem exec_evict_cached (hi : i ∈ ([.evictdl rb d, .evictdg rb d] : List Instr))
    (he : s.dbox.dcCtl.getLsbD 5 = false ∨ (loc pa + 128 ≤ s.plat.memSize ∧ s.armed = none)) :
    exec i s = .next (s.lineEffect s.evictRule pa).advance := by
  have hok : (if s.dbox.dcCtl.getLsbD 5 then s.evictAnswer (s.lineReq rb d) pa else .ok pa s) = .ok pa s := by
    obtain he | ⟨hm, ha⟩ := he
    · exact if_neg (Bool.eq_false_iff.mp he)
    · rw [evictAnswer_ok ((unanswered_line hc.1).trans (decide_eq_false (by omega))) ha, ite_self]
  rw [exec_evict hi hon, execLine_reaches _ hon.1 hr, execLineAt_evict hn ((uncached_line pa).mpr hc), hok]
  rfl

/-- An eviction of a line beyond memory whose answer's errors are taken (R167, R475). -/
theorem exec_evict_beyond (hi : i ∈ ([.evictdl rb d, .evictdg rb d] : List Instr))
    (he : s.dbox.dcCtl.getLsbD 5 = true) (hm : s.plat.memSize < loc pa + 128) :
    exec i s = .next ((s.scError 14).raiseDataPhys (s.lineReq rb d) 0x1000 0 pa) := by
  rw [exec_evict hi hon, execLine_reaches _ hon.1 hr, execLineAt_evict hn ((uncached_line pa).mpr hc), if_pos he,
    evictAnswer_unanswered ((unanswered_line hc.1).trans (decide_eq_true hm))]
  rfl

end

/-! ## The obligation on cache control -/

/-- Settles O37: bad addresses, null lines, lines in cacheable space, the address match, misses, denials, multiple
matches, and OPCDEC. -/
theorem cacheControl : Obligations.CacheControl := by
  intro s rb d q flush fetches evicts all on next cleaned miss errs reaches cached faults atVa
  refine ⟨?bad, ?null, ?inCache, ?daMatch, ?missed, ?denied, ?multiple, ?off⟩
  case bad =>
    intro hn hb i hi hon
    obtain ⟨f, hx⟩ := exec_line hi hon
    exact ⟨_, hx.trans (execLine_badSext f hon.1 hn hb), lineFault_raiseData s rb d .dfault 0x800⟩
  case null =>
    intro pa hr hc i hi hon
    obtain ⟨f, hx⟩ := exec_line hi hon
    rw [hx, execLine_reaches f hon.1 (reaches_line hr)]
    exact execLineAt_uncached f (Bool.not_eq_false _ ▸ mt (uncached_line pa).mp hc)
  case inCache =>
    intro hn pa hr hc
    have hr := reaches_line hr
    refine ⟨fun i hi hon => ?fetch, fun hon => ⟨fun hm hd => ?flushed, fun hm => ?beyond⟩,
      fun he hd i hi hon => ?evicted, fun he hm i hi hon => ?refused⟩
    case fetch =>
      obtain ⟨hpc, hgpr, hsr, hvr, hfpcr, hlock⟩ := fillLine_frame s (loc pa)
      refine ⟨_, exec_fetch_cached hn hr hc hon hi, congrArg (· + 4) hpc, hgpr, hsr, hvr, hfpcr, hlock, fun hd => ?_⟩
      rw [fillLine_none hd]
      rfl
    case flushed =>
      rw [exec_flush_cached hn hr hc hon rfl, if_neg (by omega), flushLine_none hd]
      rfl
    case beyond =>
      exact ⟨_, (exec_flush_cached hn hr hc hon rfl).trans (if_pos hm),
        lineFault_of_dataFault (dva := fun x => x.extractLsb' 0 48 = pa)
          (dataFault_raiseDataPhys (sameButDraws_refl s) _ _ _) (extractLsb'_dvaOfPhys s pa)⟩
    case evicted =>
      exact lineEffect_evict hd pa ▸ exec_evict_cached hn hr hc hon hi he
    case refused =>
      obtain ⟨hpc, hexc, hdva, ⟨-, -, -, wr, hwr, hds⟩, hsc, hgpr, -, -, -, hmem, -⟩ :=
        answeredFault (errorAnswered_scError (sameButDraws_refl s)) q pa
      obtain rfl : wr = false := hwr fun h => Bool.false_ne_true h.2
      exact ⟨_, exec_evict_beyond hn hr hc hon hi he hm, hpc, hexc, hdva, hds.trans BitVec.or_zero, hsc, hgpr, hmem⟩
  case daMatch =>
    intro pa hr hc hj hd i hi hon
    obtain ⟨f, hx⟩ := exec_line hi hon
    rw [execLine_reaches f hon.1 (reaches_line hr), execLineAt_daHit f ((uncached_line pa).mpr hc) rfl hj hd] at hx
    exact ⟨_, hx, lineFault_raiseData s rb d .dfault 0x2000⟩
  case missed =>
    intro hn hb hy hl entry
    have hf := lineFault_raiseData s rb d (if q.va.getLsbD 52 then .dtbmSingle1 else .dtbmSingle0) 0
    rw [offset_single] at hf
    have outcome {i : Instr} {f : LineRule} (hx : exec i s = s.execLine rb d none f) (ha : s.iaMatch = false) :=
      dropped_or_taken (hx.trans (execLine_miss f ha hn hb hy hl)) hf
    exact ⟨fun i hi hon => outcome (exec_fetch hi) hon.1, fun i hi hon => outcome (exec_evict hi hon) hon.1,
      fun hon => (outcome (exec_flush hon) hon.1).2 rfl⟩
  case denied =>
    intro hn hb hy a fr hl bits
    have hf := lineFault_raiseData s rb d .dfault (flag a 1 ||| flag fr 2 ||| flag false 3)
    rw [denied_bits] at hf
    have outcome {i : Instr} {f : LineRule} (hx : exec i s = s.execLine rb d none f) (ha : s.iaMatch = false) :=
      dropped_or_taken (hx.trans ((execLine_denied f ha hn hb hy hl).trans (by rw [denied_bits]))) hf
    exact ⟨fun i hi hon => (outcome (exec_fetch hi) hon.1).1 rfl, fun i hi hon => outcome (exec_evict hi hon) hon.1,
      fun hon => (outcome (exec_flush hon) hon.1).2 rfl⟩
  case multiple =>
    intro hb hy hl i hi hon
    obtain ⟨f, hx⟩ := exec_line hi hon
    exact hx.trans (execLine_stuck f hon.1 hb (translate_multiple hy hl))
  case off =>
    intro p hp h
    have hx (f : LineRule) : s.execLine rb d (s.cpIllegal p.2) f = .next (s.raiseOpcdec false) :=
      congrArg (s.execLine rb d · f) (cpIllegal_some h)
    simp only [List.mem_cons, List.not_mem_nil, or_false] at hp
    obtain rfl | rfl | rfl := hp
    · exact ⟨_, hx flushRule, raiseOpcdec_faults s⟩
    · exact ⟨_, hx s.evictRule, raiseOpcdec_faults s⟩
    · exact ⟨_, hx s.evictRule, raiseOpcdec_faults s⟩

end Sys2Proof.Machine
end

section
/-! The moves between the register files and of FPCR, and the additions in which no element traps. -/

namespace Sys2Proof.Machine

/-! ## The shared shapes -/

section
variable {s : State}

theorem execToF_run {fc : Reg} (hp : s.passes .fp) (h : fc ≠ 31) (v : Word) (k : DataKind) :
    s.execToF fc v k = .next (s.writeF fc v k).advance := (if_neg h).trans (atDecode_run hp _)

theorem execFToR_run {rc : Reg} (hp : s.passes .fp) (h : rc ≠ 31) (fa : Reg) (k : DataKind) (conv : Word → Word) :
    s.execFToR fa rc k conv = .next ((s.useF fa k).2.writeReg rc (conv (s.useF fa k).1)).advance :=
  (if_neg h).trans (atDecode_run hp _)

end

/-! ## FPCR as RFPCR reads it, and the format of singles -/

/-- SUM reads as the OR of the flags (R195; D13). -/
theorem fpcrRead_eq (f : Word) : fpcrRead f = (f &&& 0x7FFFFFFFFFFFFFFF) |||
    (if f &&& 0x03F003F003F003F0 = 0 then 0 else 0x8000000000000000) := by
  unfold fpcrRead fpcrFlagMask
  by_cases h : f &&& 0x03F003F003F003F0 = 0
  · rw [if_pos h, h]
    rfl
  · rw [if_neg h, bne_iff_ne.mpr h]
    rfl

/-- The register exponent of a single, its eleven bits counted as they are joined (R434). -/
def singleExp (m : BitVec 32) : BitVec (1 + 1 + 1 + 1 + 7) :=
  if m.extractLsb' 23 8 = 0xFF then 0x7FF
  else if m.extractLsb' 23 8 = 0 then 0
  else m.extractLsb' 30 1 ++ ~~~m.extractLsb' 30 1 ++ ~~~m.extractLsb' 30 1 ++ ~~~m.extractLsb' 30 1 ++ m.extractLsb' 23 7

theorem fldsConvert_eq (m : BitVec 32) :
    fldsConvert m = m.extractLsb' 31 1 ++ singleExp m ++ m.extractLsb' 0 23 ++ (0 : BitVec 29) := rfl

theorem getLsbD_of_exponent {m : BitVec 32} {e : BitVec 8} (h : m.extractLsb' 23 8 = e) {i : Nat} (hi : i < 8) :
    m.getLsbD (23 + i) = e.getLsbD i := by
  rw [← h, BitVec.getLsbD_extractLsb', decide_eq_true hi, Bool.true_and]

/-- Widening the exponent keeps its highest bit and its seven lowest, of a single's infinity, NaN and denormal too. -/
theorem getLsbD_singleExp (m : BitVec 32) :
    (singleExp m).getLsbD 10 = m.getLsbD 30 ∧ ∀ i, i < 7 → (singleExp m).getLsbD i = m.getLsbD (23 + i) := by
  unfold singleExp
  split
  case isTrue h =>
    refine ⟨(getLsbD_of_exponent h (i := 7) (by omega)).symm, fun i hi => ?_⟩
    rw [getLsbD_of_exponent h (by omega)]
    interval_cases i <;> rfl
  case isFalse =>
    split
    case isTrue h =>
      refine ⟨(getLsbD_of_exponent h (i := 7) (by omega)).symm, fun i hi => ?_⟩
      rw [getLsbD_of_exponent h (by omega)]
      simp
    case isFalse =>
      simp only [BitVec.getLsbD_append, BitVec.getLsbD_extractLsb']
      exact ⟨by simp, fun i hi => by simp [hi]⟩

/-- FLDS then FSTS gives a single back (R434, R436). -/
theorem fstsConvert_fldsConvert (m : BitVec 32) : fstsConvert (fldsConvert m) = m := by
  obtain ⟨htop, hlow⟩ := getLsbD_singleExp m
  refine BitVec.eq_of_getLsbD_eq fun i hi => ?_
  simp only [fstsConvert, fldsConvert_eq, BitVec.getLsbD_append, BitVec.getLsbD_extractLsb']
  obtain hi | hi | rfl | rfl : i < 23 ∨ (23 ≤ i ∧ i < 30) ∨ i = 30 ∨ i = 31 := by omega
  · simp [hi, show i < 30 by omega, show ¬29 + i < 29 by omega]
  · obtain ⟨j, rfl⟩ := Nat.exists_eq_add_of_le hi.1
    rw [← hlow j (by omega)]
    simp [hi.2, show ¬29 + (23 + j) < 29 by omega, show j < 11 by omega]
  · simpa using htop
  · simp

/-! ## The obligation on the moves -/

/-- Settles O26: every move past the decode stage, and the format of a single there and back. -/
theorem floatMoves : Obligations.FloatMoves := by
  refine ⟨fun s ra fa rc fc hp hr hf => ⟨execToF_run hp hf _ _, execToF_run hp hf _ _,
    execFToR_run hp hr fa .single fun v => (fstsConvert v).signExtend 64, execFToR_run hp hr fa .image id, ?rfpcr⟩,
    fun s fa hp => ?wfpcr, fstsConvert_fldsConvert⟩
  case rfpcr =>
    rw [← fpcrRead_eq]
    exact execToF_run hp hf _ _
  case wfpcr =>
    obtain ⟨n, hn⟩ := sameButDraws_useF s fa .integer
    refine (atDecode_run hp _).trans ?_
    dsimp only
    rw [hn]
    rfl

/-! ## Additions that do not trap -/

/-- `t` is `s` after an addition has written V[fc] and FPCR, and nothing else but the pc and the count of free values. -/
structure SumWritten (s t : State) (fc : Reg) (fpcr : Word) (v : Vec) : Prop where
  kind : t.kindOf fc = .double
  others : ∀ r, r ≠ fc → t.readV r = s.readV r ∧ t.kindOf r = s.kindOf r
  frame : t = { s with vr := t.vr, kinds := t.kinds, fpcr := fpcr, pc := s.pc + 4, draws := t.draws }
  dest : t.readV fc = v

theorem sumWritten_writeV (s : State) {fc : Reg} (h : fc ≠ 31) (f : Word) (v : Vec) (n m : Nat) :
    SumWritten s { ({ s with fpcr := f, draws := n } : State).writeV fc v .double with draws := m }.advance fc f v where
  kind := kindOf_writeV_same { s with fpcr := f, draws := n } v .double h
  others r hr := ⟨readV_writeV_other { s with fpcr := f, draws := n } v .double hr,
    kindOf_writeV_other { s with fpcr := f, draws := n } v .double hr⟩
  frame := by rw [writeV_frame]; rfl
  dest := readV_writeV_same { s with fpcr := f, draws := n } v .double h

/-- FADDD with no trap (R561). -/
theorem sumWritten_finishScalar (s : State) {fc : Reg} (h : fc ≠ 31) {o : FpOutcome} (ho : o.traps.none = true)
    (n : Nat) (mixed : Bool) : ∃ v : Vec,
      SumWritten s (({ s with draws := n } : State).finishScalar fc mixed o) fc (s.fpcr ||| o.flags.bitsAt 52) v ∧
      v.extractLsb' 0 64 = ({ s with draws := n } : State).written mixed 0 o := by
  simp only [State.finishScalar, ho, Bool.not_true, Bool.false_eq_true, if_false, writeF_eq _ _ _ h]
  refine ⟨_, sumWritten_writeV s h _ _ _ _, ?_⟩
  rw [BitVec.extractLsb'_append_eq_of_add_le (by omega), BitVec.extractLsb'_eq_self]

/-- VADDD with no trap in any element (R571). -/
theorem sumWritten_finishVector (s : State) {fc : Reg} (h : fc ≠ 31) {o : Nat → FpOutcome}
    (ho : ∀ k, k < 4 → (o k).traps.none = true) (n : Nat) (mixed : Bool) : ∃ v : Vec,
      SumWritten s (({ s with draws := n } : State).finishVector fc mixed (o 0) (o 1) (o 2) (o 3)) fc
        (s.fpcr ||| groupBits fpcrGroup (o 0).flags (o 1).flags (o 2).flags (o 3).flags) v ∧
      ∀ k, k < 4 → elem v k = ({ s with draws := n } : State).written mixed k (o k) := by
  simp only [State.finishVector, ho 0 (by omega), ho 1 (by omega), ho 2 (by omega), ho 3 (by omega), Bool.and_true,
    Bool.not_true, Bool.false_eq_true, if_false]
  exact ⟨_, sumWritten_writeV s h _ _ _ _, fun k hk => elem_vec4 (fun k => State.written _ mixed k (o k)) hk⟩

/-! ## The obligation on the additions -/

/-- Settles O27: both additions, from the state their operands leave. -/
theorem floatAdditions : Obligations.FloatAdditions := by
  intro s fa fb fc hfc a b doubles o bits
  have hmixed (h : doubles) : s.sumMixed fa fb = false := by simp [State.sumMixed, h.1, h.2]
  refine ⟨fun hp ho => ?faddd, fun hp ho => ?vaddd⟩
  case faddd =>
    obtain ⟨v, h, hv⟩ := sumWritten_finishScalar s hfc ho (s.sumDraws fa fb) (s.sumMixed fa fb)
    refine ⟨_, exec_faddd fa fb hfc hp, fun hd => ?_, h.kind, h.others, h.frame⟩
    rw [hmixed hd, written_value _ 0 (.inr ho), ← h.dest] at hv
    exact hv
  case vaddd =>
    obtain ⟨v, h, hv⟩ := sumWritten_finishVector s hfc ho (s.sumDraws fa fb) (s.sumMixed fa fb)
    rw [or_groupBits] at h
    refine ⟨_, exec_vaddd fa fb hfc hp, fun hd k hk => ?_, h.kind, h.others, h.frame⟩
    have hkv := hv k hk
    rw [hmixed hd, written_value _ k (.inr (ho k hk)), ← h.dest] at hkv
    exact hkv

end Sys2Proof.Machine
end

section
/-! Doubles as exact values, and the rounding of an exact value: what is cut off its magnitude, and when one unit is added
back. -/

namespace Sys2Proof.Machine

/-! ## The fields of a double -/

section
variable {neg : Bool} {e f : Nat}

/-- A double is its sign, its exponent and its fraction. -/
theorem mkDouble_eq_append (he : e < 2 ^ 11) (hf : f < 2 ^ 52) :
    mkDouble neg e f = (BitVec.ofBool neg ++ BitVec.ofNat 11 e ++ BitVec.ofNat 52 f : BitVec (1 + 11 + 52)) := by
  refine BitVec.eq_of_getLsbD_eq fun i hi => ?_
  have hsign : (flag neg 63).getLsbD i = (decide (i = 63) && neg) := by
    cases neg
    case false => simp [flag]
    case true =>
      rw [Bool.and_true, decide_eq_decide.mpr (eq_comm (a := i))]
      exact BitVec.getLsbD_twoPow 63 i
  have hexp (h : 11 ≤ i - 52) : e.testBit (i - 52) = false :=
    Nat.testBit_lt_two_pow (he.trans_le (Nat.pow_le_pow_right (by omega) h))
  have hfrac (h : 52 ≤ i) : f.testBit i = false :=
    Nat.testBit_lt_two_pow (hf.trans_le (Nat.pow_le_pow_right (by omega) h))
  simp only [mkDouble, BitVec.getLsbD_or, BitVec.getLsbD_append, BitVec.getLsbD_shiftLeft, BitVec.getLsbD_ofNat, hsign]
  obtain h | ⟨hl, hu⟩ | rfl : i < 52 ∨ (52 ≤ i ∧ i < 63) ∨ i = 63 := by omega
  · simp [h, show i ≠ 63 by omega, show i < 64 by omega]
  · simp [hfrac hl, show ¬i < 52 by omega, show i ≠ 63 by omega, show i < 64 by omega, show i - 52 < 11 by omega,
      show i - 52 < 64 by omega]
  · simp [hfrac (by omega), hexp (by omega)]

theorem dExp_mkDouble (he : e < 2 ^ 11) (hf : f < 2 ^ 52) : dExp (mkDouble neg e f) = e := by
  rw [dExp, mkDouble_eq_append he hf, BitVec.extractLsb'_append_eq_of_le (by omega),
    BitVec.extractLsb'_append_eq_of_add_le (by omega), BitVec.extractLsb'_eq_self, BitVec.toNat_ofNat, Nat.mod_eq_of_lt he]

theorem dFrac_mkDouble (he : e < 2 ^ 11) (hf : f < 2 ^ 52) : dFrac (mkDouble neg e f) = f := by
  rw [dFrac, mkDouble_eq_append he hf, BitVec.extractLsb'_append_eq_of_add_le (by omega), BitVec.extractLsb'_eq_self,
    BitVec.toNat_ofNat, Nat.mod_eq_of_lt hf]

theorem dSign_mkDouble (he : e < 2 ^ 11) (hf : f < 2 ^ 52) : dSign (mkDouble neg e f) = neg := by
  rw [dSign, mkDouble_eq_append he hf]
  simp only [BitVec.getLsbD_append, BitVec.getLsbD_ofBool]
  simp

theorem getLsbD_zero_mkDouble (he : e < 2 ^ 11) (hf : f < 2 ^ 52) :
    (mkDouble neg e f).getLsbD 0 = decide (f % 2 = 1) := by
  rw [mkDouble_eq_append he hf]
  simp only [BitVec.getLsbD_append, BitVec.getLsbD_ofNat]
  simp

end

theorem dExp_lt (x : Word) : dExp x < 2 ^ 11 := BitVec.isLt _

theorem dFrac_lt (x : Word) : dFrac x < 2 ^ 52 := BitVec.isLt _

theorem mkDouble_fields (x : Word) : mkDouble (dSign x) (dExp x) (dFrac x) = x := by
  rw [mkDouble_eq_append (dExp_lt x) (dFrac_lt x)]
  refine BitVec.eq_of_getLsbD_eq fun i hi => ?_
  simp only [dSign, dExp, dFrac, BitVec.ofNat_toNat, BitVec.setWidth_eq, BitVec.getLsbD_append, BitVec.getLsbD_extractLsb',
    BitVec.getLsbD_ofBool]
  obtain h | ⟨hl, hu⟩ | rfl : i < 52 ∨ (52 ≤ i ∧ i < 63) ∨ i = 63 := by omega
  · simp [h]
  · simp [show ¬i < 52 by omega, show i - 52 < 11 by omega, Nat.add_sub_cancel' hl]
  · simp

/-! ## A magnitude cut to 53 bits -/

/-- The exponent of the unit in the last place of a magnitude that is cut to 53 bits. -/
def ulpExp (n : Nat) : Nat := n.log2 - 52

/-- The 53 bits that are kept. -/
def keptBits (n : Nat) : Nat := n / 2 ^ ulpExp n

/-- What is cut off. -/
def cutOff (n : Nat) : Nat := n % 2 ^ ulpExp n

theorem keptBits_mul_add_cutOff (n : Nat) : keptBits n * 2 ^ ulpExp n + cutOff n = n := Nat.div_add_mod' n _

theorem cutOff_lt (n : Nat) : cutOff n < 2 ^ ulpExp n := Nat.mod_lt _ (by positivity)

section
variable {n : Nat}

theorem ulpExp_eq {k : Nat} (hl : 2 ^ (52 + k) ≤ n) (hu : n < 2 ^ (53 + k)) : ulpExp n = k := by
  have hn : n ≠ 0 := (Nat.lt_of_lt_of_le (by positivity) hl).ne'
  have hlog : n.log2 = 52 + k := (Nat.log2_eq_iff hn).mpr ⟨hl, by rwa [show 52 + k + 1 = 53 + k by omega]⟩
  rw [ulpExp, hlog, Nat.add_sub_cancel_left]

variable (h : 2 ^ 52 ≤ n)
include h

theorem ulp_bounds : 2 ^ 52 * 2 ^ ulpExp n ≤ n ∧ n < 2 ^ 53 * 2 ^ ulpExp n := by
  have hn : n ≠ 0 := (Nat.lt_of_lt_of_le (by positivity) h).ne'
  have hlog : 52 ≤ n.log2 := (Nat.le_log2 hn).mpr h
  rw [← pow_add, ← pow_add, ulpExp, Nat.add_sub_cancel' hlog, show 53 + (n.log2 - 52) = n.log2 + 1 by omega]
  exact ⟨Nat.log2_self_le hn, Nat.lt_log2_self⟩

theorem keptBits_bounds : 2 ^ 52 ≤ keptBits n ∧ keptBits n < 2 ^ 53 := by
  obtain ⟨hl, hu⟩ := ulp_bounds h
  exact ⟨(Nat.le_div_iff_mul_le (by positivity)).mpr hl, (Nat.div_lt_iff_lt_mul (by positivity)).mpr hu⟩

end

/-! ## Rounding the magnitude -/

/-- When a unit is added (R191 DYN). -/
theorem roundsUp_iff (mode : BitVec 2) (neg odd : Bool) (rem shift : Nat) : roundsUp mode neg odd rem shift = true ↔
    (mode = 1 ∧ neg = true ∧ rem ≠ 0) ∨ (mode = 3 ∧ neg = false ∧ rem ≠ 0) ∨
      (mode = 2 ∧ (2 ^ shift < 2 * rem ∨ (2 * rem = 2 ^ shift ∧ odd = true))) := by
  obtain rfl | rfl | rfl | rfl : mode = 0 ∨ mode = 1 ∨ mode = 2 ∨ mode = 3 := by revert mode; decide
  · simp [roundsUp]
  · simp [roundsUp]
  · have hrem : 2 * rem = 2 ^ shift → rem ≠ 0 := by
      have hpos : 0 < 2 ^ shift := by positivity
      omega
    simp [roundsUp]
    tauto
  · simp [roundsUp]

/-- The rounded significand, from 2^52 to 2^53. -/
def roundedBits (mode : BitVec 2) (v : Int) : Nat :=
  let n := v.natAbs
  if roundsUp mode (decide (v < 0)) (keptBits n % 2 == 1) (cutOff n) (ulpExp n) then keptBits n + 1 else keptBits n

/-- The rounded magnitude, with no bound on the exponent. -/
def roundedMag (mode : BitVec 2) (v : Int) : Nat := roundedBits mode v * 2 ^ ulpExp v.natAbs

/-- What is cut off is dropped, or made up to a unit (R562). -/
theorem roundedMag_cases (mode : BitVec 2) (v : Int) :
    let n := v.natAbs
    let up := roundsUp mode (decide (v < 0)) (keptBits n % 2 == 1) (cutOff n) (ulpExp n)
    (up = false ∧ roundedBits mode v = keptBits n ∧ roundedMag mode v + cutOff n = n) ∨
      (up = true ∧ roundedBits mode v = keptBits n + 1 ∧ roundedMag mode v + cutOff n = n + 2 ^ ulpExp n) := by
  intro n up
  have hn : keptBits n * 2 ^ ulpExp n + cutOff n = n := keptBits_mul_add_cutOff n
  cases hup : up with
  | false =>
    have hb : roundedBits mode v = keptBits n := if_neg (by simpa [up, n] using hup)
    exact .inl ⟨rfl, hb, by rw [roundedMag, hb, hn]⟩
  | true =>
    have hb : roundedBits mode v = keptBits n + 1 := if_pos hup
    refine .inr ⟨rfl, hb, ?_⟩
    rw [roundedMag, hb, Nat.add_one_mul, Nat.add_right_comm, hn]

theorem roundedBits_bounds (mode : BitVec 2) {v : Int} (h : 2 ^ 52 ≤ v.natAbs) :
    2 ^ 52 ≤ roundedBits mode v ∧ roundedBits mode v ≤ 2 ^ 53 := by
  have hk := keptBits_bounds h
  obtain ⟨-, hb, -⟩ | ⟨-, hb, -⟩ := roundedMag_cases mode v <;> omega

/-! ## Packing a rounded significand -/

/-- The normal double of a significand from 2^52 to 2^53 and the exponent of its unit. -/
def packDouble (neg : Bool) (shift q : Nat) : Word :=
  mkDouble neg (if q = 2 ^ 53 then shift + 2 else shift + 1) (if q = 2 ^ 53 then 0 else q - 2 ^ 52)

section
variable {shift q : Nat} (hl : 2 ^ 52 ≤ q) (hu : q ≤ 2 ^ 53)
include hl hu

/-- The exponent is too large exactly if the value is not below 2^2098, the power after the largest finite double. -/
theorem exponent_overflows_iff :
    2047 ≤ (if q = 2 ^ 53 then shift + 2 else shift + 1) ↔ 2 ^ 2098 ≤ q * 2 ^ shift := by
  split
  case isTrue h =>
    rw [h, ← pow_add, Nat.pow_le_pow_iff_right (by omega)]
    omega
  case isFalse h =>
    refine ⟨fun he => ?_, fun hq => ?_⟩
    · have hle : 2 ^ 2098 ≤ 2 ^ (52 + shift) := by
        rw [Nat.pow_le_pow_iff_right (by omega)]
        omega
      exact hle.trans (pow_add 2 52 shift ▸ Nat.mul_le_mul_right _ hl)
    · have hlt : q * 2 ^ shift < 2 ^ 53 * 2 ^ shift := Nat.mul_lt_mul_of_pos_right (by omega) (by positivity)
      rw [← pow_add] at hlt
      have hexp := (Nat.pow_lt_pow_iff_right (by omega)).mp (Nat.lt_of_le_of_lt hq hlt)
      omega

variable (hq : q * 2 ^ shift < 2 ^ 2098) (neg : Bool)
include hq

theorem dExp_packDouble : dExp (packDouble neg shift q) ≠ 2047 := by
  have he := mt (exponent_overflows_iff hl hu).mp hq.not_ge
  rw [packDouble, dExp_mkDouble (by omega) (by split <;> omega)]
  omega

theorem exactValue_packDouble :
    exactValue (packDouble neg shift q) = if neg then -((q * 2 ^ shift : Nat) : Int) else (q * 2 ^ shift : Nat) := by
  have he := mt (exponent_overflows_iff hl hu).mp hq.not_ge
  have hf : (if q = 2 ^ 53 then 0 else q - 2 ^ 52) < 2 ^ 52 := by split <;> omega
  rw [exactValue, packDouble, dSign_mkDouble (by omega) hf, dExp_mkDouble (by omega) hf, dFrac_mkDouble (by omega) hf,
    if_neg (show ¬(if q = 2 ^ 53 then shift + 2 else shift + 1) = 0 by split <;> omega)]
  have hm : (2 ^ 52 + if q = 2 ^ 53 then 0 else q - 2 ^ 52) *
      2 ^ ((if q = 2 ^ 53 then shift + 2 else shift + 1) - 1) = q * 2 ^ shift := by
    split
    case isTrue h => rw [h, Nat.add_zero, ← pow_add, ← pow_add, show 52 + (shift + 2 - 1) = 53 + shift by omega]
    case isFalse => rw [Nat.add_sub_cancel, Nat.add_sub_cancel' hl]
  rw [hm]

theorem getLsbD_zero_packDouble : (packDouble neg shift q).getLsbD 0 = decide (q % 2 = 1) := by
  have he := mt (exponent_overflows_iff hl hu).mp hq.not_ge
  rw [packDouble, getLsbD_zero_mkDouble (by omega) (by split <;> omega), decide_eq_decide]
  split <;> omega

end

/-- Rounding, from its parts. -/
theorem roundExact_eq (mode : BitVec 2) {v : Int} (h : 2 ^ 52 ≤ v.natAbs) : roundExact mode v =
    if 2 ^ 2098 ≤ roundedMag mode v then (overflowResult mode (decide (v < 0)), { ovf := true, ine := true })
    else (packDouble (decide (v < 0)) (ulpExp v.natAbs) (roundedBits mode v), { ine := cutOff v.natAbs != 0 }) := by
  obtain ⟨hl, hu⟩ := roundedBits_bounds mode h
  have hulp : v.natAbs.log2 - 52 = ulpExp v.natAbs := rfl
  have hkept : v.natAbs >>> ulpExp v.natAbs = keptBits v.natAbs := Nat.shiftRight_eq_div_pow _ _
  have hcut : v.natAbs - keptBits v.natAbs <<< ulpExp v.natAbs = cutOff v.natAbs := by
    rw [Nat.shiftLeft_eq]
    exact Nat.sub_eq_of_eq_add' (keptBits_mul_add_cutOff _).symm
  simp only [roundedMag, ← exponent_overflows_iff hl hu, roundExact, if_neg h.not_gt, hulp, hkept, hcut]
  rfl

theorem roundExact_below (mode : BitVec 2) {v : Int} (h : v.natAbs < 2 ^ 52) :
    roundExact mode v = (0, { unf := true, ine := true }) := if_pos h

/-- What does not overflow is packed. -/
theorem roundExact_of_not_ovf {mode : BitVec 2} {v : Int} (h : 2 ^ 52 ≤ v.natAbs)
    (ho : (roundExact mode v).2.ovf = false) : roundedMag mode v < 2 ^ 2098 ∧ roundExact mode v =
      (packDouble (decide (v < 0)) (ulpExp v.natAbs) (roundedBits mode v), { ine := cutOff v.natAbs != 0 }) := by
  rw [roundExact_eq mode h] at ho ⊢
  split at ho
  case isTrue => cases ho
  case isFalse hm => exact ⟨Nat.lt_of_not_ge hm, if_neg hm⟩

/-! ## How far the rounded magnitude is off -/

section
variable (mode : BitVec 2) (v : Int)

theorem roundedMag_error : roundedMag mode v < v.natAbs + 2 ^ ulpExp v.natAbs ∧
    v.natAbs < roundedMag mode v + 2 ^ ulpExp v.natAbs := by
  have hcut := cutOff_lt v.natAbs
  obtain ⟨-, -, hm⟩ | ⟨hup, -, hm⟩ := roundedMag_cases mode v
  · omega
  · rw [roundsUp_iff] at hup
    omega

/-- What is cut off is 0 exactly if the magnitude is kept. -/
theorem cutOff_eq_zero_iff : cutOff v.natAbs = 0 ↔ roundedMag mode v = v.natAbs := by
  have hcut := cutOff_lt v.natAbs
  obtain ⟨-, -, hm⟩ | ⟨hup, -, hm⟩ := roundedMag_cases mode v
  · omega
  · rw [roundsUp_iff] at hup
    omega

variable {mode v}

/-- The modes that point towards zero do not add to the magnitude. -/
theorem roundedMag_le (h : mode = 0 ∨ (mode = 1 ∧ 0 ≤ v) ∨ (mode = 3 ∧ v < 0)) : roundedMag mode v ≤ v.natAbs := by
  obtain ⟨-, -, hm⟩ | ⟨hup, -, -⟩ := roundedMag_cases mode v
  · omega
  · rw [roundsUp_iff] at hup
    obtain rfl | ⟨rfl, hv⟩ | ⟨rfl, hv⟩ := h <;> simp at hup <;> omega

/-- The modes that point away from zero do not take from it. -/
theorem le_roundedMag (h : (mode = 1 ∧ v < 0) ∨ (mode = 3 ∧ 0 ≤ v)) : v.natAbs ≤ roundedMag mode v := by
  have hcut := cutOff_lt v.natAbs
  obtain ⟨hup, -, hm⟩ | ⟨-, -, hm⟩ := roundedMag_cases mode v
  · rw [← Bool.not_eq_true, roundsUp_iff] at hup
    obtain ⟨rfl, hv⟩ | ⟨rfl, hv⟩ := h <;> simp [hv] at hup <;> omega
  · omega

/-- To nearest the error is at most half a unit, and at half a unit the significand is even. -/
theorem roundedMag_nearest : let e := ((roundedMag 2 v : Int) - v.natAbs).natAbs
    2 * e ≤ 2 ^ ulpExp v.natAbs ∧ (2 * e = 2 ^ ulpExp v.natAbs → roundedBits 2 v % 2 = 0) := by
  intro e
  have hcut := cutOff_lt v.natAbs
  obtain ⟨hup, hb, hm⟩ | ⟨hup, hb, hm⟩ := roundedMag_cases 2 v
  · rw [← Bool.not_eq_true, roundsUp_iff] at hup
    simp at hup
    omega
  · rw [roundsUp_iff] at hup
    simp at hup
    omega

end

/-! ## The obligation on rounding -/

/-- Settles O29: the value of the double is the rounded magnitude with the sign of the exact value. -/
theorem roundingBounds : Obligations.RoundingBounds := by
  intro mode v h hovf r
  obtain ⟨hmax, hround⟩ := roundExact_of_not_ovf h hovf
  obtain ⟨hl, hu⟩ := roundedBits_bounds mode h
  have hr : r = if v < 0 then -(roundedMag mode v : Int) else roundedMag mode v := by
    rw [show r = exactValue (roundExact mode v).1 from rfl, hround, exactValue_packDouble hl hu hmax]
    simp only [decide_eq_true_eq]
    rfl
  have hdiff : (r - v).natAbs = ((roundedMag mode v : Int) - v.natAbs).natAbs := by
    rw [hr]
    split <;> omega
  obtain ⟨hulp, -⟩ := ulp_bounds h
  have herror := roundedMag_error mode v
  rw [hdiff]
  refine ⟨?finite, ?towardZero, ?down, ?up, ?nearest, by omega, ?tie, ?inexact⟩
  case finite =>
    rw [hround]
    exact dExp_packDouble hl hu hmax _
  case towardZero =>
    rintro rfl
    have hle := roundedMag_le (v := v) (.inl rfl)
    split at hr <;> omega
  case down =>
    rintro rfl
    split at hr
    · have hle := le_roundedMag (v := v) (.inl ⟨rfl, ‹_›⟩)
      omega
    · have hle := roundedMag_le (mode := 1) (v := v) (.inr (.inl ⟨rfl, by omega⟩))
      omega
  case up =>
    rintro rfl
    split at hr
    · have hle := roundedMag_le (mode := 3) (v := v) (.inr (.inr ⟨rfl, ‹_›⟩))
      omega
    · have hle := le_roundedMag (v := v) (.inr ⟨rfl, by omega⟩)
      omega
  case nearest =>
    rintro rfl
    have hhalf := (roundedMag_nearest (v := v)).1
    omega
  case tie =>
    rintro rfl k hlo hhi htie
    have heven := (roundedMag_nearest (v := v)).2
    rw [ulpExp_eq hlo hhi] at heven
    rw [hround, getLsbD_zero_packDouble hl hu hmax, heven htie]
    rfl
  case inexact =>
    rw [hround, bne_eq_false_iff_eq, cutOff_eq_zero_iff mode, hr]
    split <;> omega

end Sys2Proof.Machine
end

section
/-! Sums of doubles: exact ones, those that overflow, and what zeros, denormals, infinities and NaNs give. -/

namespace Sys2Proof.Machine

/-! ## A normal double is its own rounding -/

section
variable {c : Word}

theorem exactValue_eq (c : Word) : exactValue c =
    if dSign c then -((exactValue c).natAbs : Int) else (exactValue c).natAbs := by
  cases hs : dSign c <;>
    simp only [exactValue, hs, Bool.false_eq_true, if_false, if_true, Int.natAbs_neg, Int.natAbs_natCast]

theorem natAbs_exactValue (h : dExp c ≠ 0) : (exactValue c).natAbs = (2 ^ 52 + dFrac c) * 2 ^ (dExp c - 1) := by
  unfold exactValue
  rw [if_neg h]
  split <;> simp only [Int.natAbs_neg, Int.natAbs_natCast]

theorem exactValue_normal_bounds (h : dExp c ≠ 0) : 2 ^ (52 + (dExp c - 1)) ≤ (exactValue c).natAbs ∧
    (exactValue c).natAbs < 2 ^ (53 + (dExp c - 1)) := by
  have hf := dFrac_lt c
  rw [natAbs_exactValue h, pow_add, pow_add]
  exact ⟨Nat.mul_le_mul_right _ (by omega), Nat.mul_lt_mul_of_pos_right (by omega) (by positivity)⟩

/-- The value of a normal double has the double's sign, exponent and significand, and nothing is cut off. -/
theorem parts_exactValue (h : dExp c ≠ 0) :
    decide (exactValue c < 0) = dSign c ∧ ulpExp (exactValue c).natAbs = dExp c - 1 ∧
      keptBits (exactValue c).natAbs = 2 ^ 52 + dFrac c ∧ cutOff (exactValue c).natAbs = 0 := by
  obtain ⟨hl, hu⟩ := exactValue_normal_bounds h
  have hulp := ulpExp_eq hl hu
  have hpos : 0 < (exactValue c).natAbs := Nat.lt_of_lt_of_le (by positivity) hl
  refine ⟨?_, hulp, ?_, ?_⟩
  · have hv := exactValue_eq c
    cases hs : dSign c with
    | false =>
      rw [hs, if_neg (by decide)] at hv
      exact decide_eq_false (by omega)
    | true =>
      rw [hs, if_pos rfl] at hv
      exact decide_eq_true (by omega)
  · rw [keptBits, hulp, natAbs_exactValue h, Nat.mul_div_cancel _ (by positivity)]
  · rw [cutOff, hulp, natAbs_exactValue h, Nat.mul_mod_left]

/-- Rounding keeps a normal double in every mode, and raises nothing. -/
theorem roundExact_exactValue (mode : BitVec 2) (hm : dExp c ≠ 2047) (h : dExp c ≠ 0) :
    roundExact mode (exactValue c) = (c, {}) := by
  obtain ⟨hsign, hulp, hkept, hcut⟩ := parts_exactValue h
  have he := dExp_lt c
  have hf := dFrac_lt c
  have hn : 2 ^ 52 ≤ (exactValue c).natAbs :=
    (Nat.pow_le_pow_right (by omega) (by omega)).trans (exactValue_normal_bounds h).1
  have hbits : roundedBits mode (exactValue c) = 2 ^ 52 + dFrac c := by
    obtain ⟨-, hb, -⟩ | ⟨hup, -, -⟩ := roundedMag_cases mode (exactValue c)
    · rw [hb, hkept]
    · rw [roundsUp_iff, hcut] at hup
      have : 0 < 2 ^ ulpExp (exactValue c).natAbs := by positivity
      omega
  have hfinite : ¬2 ^ 2098 ≤ roundedMag mode (exactValue c) := by
    rw [roundedMag, hbits, hulp, ← exponent_overflows_iff (by omega) (by omega), if_neg (by omega)]
    omega
  rw [roundExact_eq mode hn, if_neg hfinite, hbits, hulp, hsign, hcut, packDouble, if_neg (by omega), if_neg (by omega),
    Nat.sub_add_cancel (Nat.pos_of_ne_zero h), Nat.add_sub_cancel_left, mkDouble_fields]
  rfl

end

/-! ## Overflow -/

/-- Rounding in this mode takes values of the sign of `v` away from zero. -/
def pointsAway (mode : BitVec 2) (v : Int) : Prop := (mode = 1 ∧ v < 0) ∨ (mode = 3 ∧ 0 < v)

/-- A significand of 53 ones is rounded up if something is cut off and the mode points away from zero, or half a unit or
more is cut off to nearest. -/
theorem roundsUp_ones_iff {mode : BitVec 2} {v : Int} (hv : v ≠ 0) {shift half : Nat} (hs : 2 ^ shift = 2 * half)
    (rem : Nat) :
    roundsUp mode (decide (v < 0)) true rem shift = true ↔ rem ≠ 0 ∧ (pointsAway mode v ∨ (mode = 2 ∧ half ≤ rem)) := by
  have hpos : 0 < 2 ^ shift := by positivity
  rw [roundsUp_iff, pointsAway, hs, decide_eq_true_eq, decide_eq_false_iff_not]
  have hnonneg : ¬v < 0 ↔ 0 < v := by omega
  have hhalf : 2 * half < 2 * rem ∨ (2 * rem = 2 * half ∧ true = true) ↔ half ≤ rem := by
    simp only [and_true]
    omega
  rw [hnonneg, hhalf]
  by_cases hrem : rem = 0
  · simp [hrem, show half ≠ 0 by omega]
  · simp [hrem, or_assoc]

/-- A magnitude with `2 * half` as its unit is rounded to the next power of two where its last unit is rounded up. -/
theorem roundedMag_carries_iff (mode : BitVec 2) {v : Int} (h : 2 ^ 52 ≤ v.natAbs) {half : Nat}
    (hs : 2 ^ ulpExp v.natAbs = 2 * half) : 2 ^ 54 * half ≤ roundedMag mode v ↔
      2 ^ 54 * half - 2 * half < v.natAbs ∧ (pointsAway mode v ∨ (mode = 2 ∧ 2 ^ 54 * half - half ≤ v.natAbs)) := by
  have hn := keptBits_mul_add_cutOff v.natAbs
  have hcut := cutOff_lt v.natAbs
  have hkept := (keptBits_bounds h).2
  rw [hs] at hn hcut
  by_cases hones : keptBits v.natAbs = 2 ^ 53 - 1
  case pos =>
    rw [hones] at hn
    have hlast : 2 ^ 54 * half - 2 * half < v.natAbs ↔ cutOff v.natAbs ≠ 0 := by omega
    have hmiddle : 2 ^ 54 * half - half ≤ v.natAbs ↔ half ≤ cutOff v.natAbs := by omega
    have hodd : (keptBits v.natAbs % 2 == 1) = true := by rw [hones]; rfl
    have hm := roundedMag_cases mode v
    simp only [hodd] at hm
    rw [hlast, hmiddle, ← roundsUp_ones_iff (by omega) hs]
    obtain ⟨hup, -, hm⟩ | ⟨hup, -, hm⟩ := hm
    · exact iff_of_false (by omega) (by rw [hup]; decide)
    · exact iff_of_true (by omega) hup
  case neg =>
    have hb : roundedBits mode v ≤ 2 ^ 53 - 1 := by
      obtain ⟨-, hb, -⟩ | ⟨-, hb, -⟩ := roundedMag_cases mode v <;> omega
    have hmag : roundedMag mode v ≤ (2 ^ 53 - 1) * (2 * half) := by
      rw [roundedMag, hs]
      exact Nat.mul_le_mul_right _ hb
    have hle : keptBits v.natAbs * (2 * half) ≤ (2 ^ 53 - 2) * (2 * half) := Nat.mul_le_mul_right _ (by omega)
    omega

/-- The rounded magnitude reaches a power of two from there on, and from below it where the mode rounds the last unit up. -/
theorem roundedMag_reaches_iff (mode : BitVec 2) {v : Int} (h : 2 ^ 52 ≤ v.natAbs) (k : Nat) :
    2 ^ (k + 54) ≤ roundedMag mode v ↔ 2 ^ (k + 54) ≤ v.natAbs ∨ (2 ^ (k + 54) - 2 ^ (k + 1) < v.natAbs ∧
      (pointsAway mode v ∨ (mode = 2 ∧ 2 ^ (k + 54) - 2 ^ k ≤ v.natAbs))) := by
  obtain ⟨hl, hu⟩ := ulp_bounds h
  obtain ⟨hbl, hbu⟩ := roundedBits_bounds mode h
  have hpos : 0 < 2 ^ k := by positivity
  rw [add_comm k, pow_add, pow_succ' 2 k]
  obtain hk | hk | hk : ulpExp v.natAbs ≤ k ∨ ulpExp v.natAbs = k + 1 ∨ k + 2 ≤ ulpExp v.natAbs := by omega
  case inl =>
    have hle : 2 ^ ulpExp v.natAbs ≤ 2 ^ k := Nat.pow_le_pow_right (by omega) hk
    have hmag : roundedMag mode v ≤ 2 ^ 53 * 2 ^ k := Nat.mul_le_mul hbu hle
    omega
  case inr.inl =>
    have hs : 2 ^ ulpExp v.natAbs = 2 * 2 ^ k := by rw [hk, pow_succ']
    rw [roundedMag_carries_iff mode h hs, or_iff_right (a := 2 ^ 54 * 2 ^ k ≤ v.natAbs) (by omega)]
  case inr.inr =>
    have hle : 2 ^ k * 2 ^ 2 ≤ 2 ^ ulpExp v.natAbs := pow_add 2 k 2 ▸ Nat.pow_le_pow_right (by omega) hk
    have hmag : 2 ^ 52 * (2 ^ k * 2 ^ 2) ≤ roundedMag mode v := Nat.mul_le_mul hbl hle
    omega

/-- Overflow, by the exact value: half a unit over the largest double lies at 2^2098 - 2^2044 (R203, R625). -/
theorem ovf_roundExact_iff (mode : BitVec 2) (v : Int) : (roundExact mode v).2.ovf = true ↔ 2 ^ 2098 ≤ v.natAbs ∨
    (2 ^ 2098 - 2 ^ 2045 < v.natAbs ∧ (pointsAway mode v ∨ (mode = 2 ∧ 2 ^ 2098 - 2 ^ 2044 ≤ v.natAbs))) := by
  by_cases h : 2 ^ 52 ≤ v.natAbs
  case pos =>
    have hreach := roundedMag_reaches_iff mode h 2044
    simp only [Nat.reduceAdd] at hreach
    rw [← hreach, roundExact_eq mode h]
    split
    · exact iff_of_true rfl ‹_›
    · exact iff_of_false Bool.false_ne_true ‹_›
  case neg =>
    have hbelow (k : Nat) : v.natAbs < 2 ^ (k + 54) - 2 ^ (k + 1) := by
      have hpos : 0 < 2 ^ k := by positivity
      rw [pow_add, pow_add]
      omega
    have hlt := hbelow 2044
    simp only [Nat.reduceAdd] at hlt
    rw [roundExact_below mode (Nat.lt_of_not_ge h)]
    exact iff_of_false Bool.false_ne_true (not_or.mpr
      ⟨Nat.not_le.mpr (Nat.lt_of_lt_of_le hlt (Nat.sub_le ..)), fun hr => Nat.lt_asymm hr.1 hlt⟩)

/-- What an overflow gives (R203). -/
theorem overflowResult_eq (mode : BitVec 2) {v : Int} (hv : v ≠ 0) {_ : Decidable (mode = 2 ∨ pointsAway mode v)} :
    overflowResult mode (decide (v < 0)) = (if v < 0 then 0x8000000000000000 else 0) |||
      (if mode = 2 ∨ pointsAway mode v then 0x7FF0000000000000 else 0x7FEFFFFFFFFFFFFF) := by
  have hinf : (mode == 2 || (mode == 1 && decide (v < 0)) || (mode == 3 && !decide (v < 0))) = true ↔
      mode = 2 ∨ pointsAway mode v := by
    have hnonneg : ¬v < 0 ↔ 0 < v := by omega
    simp only [pointsAway, Bool.or_eq_true, Bool.and_eq_true, beq_iff_eq, Bool.not_eq_true', decide_eq_true_eq,
      decide_eq_false_iff_not, hnonneg, or_assoc]
  simp only [overflowResult, hinf]
  by_cases hn : v < 0
  · simp only [hn, if_true, decide_true]
    split <;> rfl
  · simp only [hn, if_false, decide_false]
    split <;> rfl

theorem roundExact_ovf {mode : BitVec 2} {v : Int} (h : (roundExact mode v).2.ovf = true) :
    roundExact mode v = (overflowResult mode (decide (v < 0)), { ovf := true, ine := true }) := by
  by_cases hn : 2 ^ 52 ≤ v.natAbs
  · rw [roundExact_eq mode hn] at h ⊢
    split at h
    · exact if_pos ‹_›
    · cases h
  · rw [roundExact_below mode (Nat.lt_of_not_ge hn)] at h
    cases h

/-! ## The kinds of doubles -/

section
variable {x : Word}

theorem isDen_iff (x : Word) : isDen x = true ↔ dExp x = 0 ∧ dFrac x ≠ 0 := by
  simp only [isDen, Bool.and_eq_true, beq_iff_eq, bne_iff_ne]

theorem isNan_iff (x : Word) : isNan x = true ↔ dExp x = 2047 ∧ dFrac x ≠ 0 := by
  simp only [isNan, Bool.and_eq_true, beq_iff_eq, bne_iff_ne]

theorem isInf_iff (x : Word) : isInf x = true ↔ dExp x = 2047 ∧ dFrac x = 0 := by
  simp only [isInf, Bool.and_eq_true, beq_iff_eq]

theorem nonFinite_iff (x : Word) : dExp x = 2047 ↔ isNan x = true ∨ isInf x = true := by
  rw [isNan_iff, isInf_iff]
  tauto

/-- No NaN is infinite. -/
theorem isNan_of_isInf (h : isInf x = true) : isNan x = false := by
  rw [← Bool.not_eq_true, isNan_iff]
  exact fun hn => hn.2 ((isInf_iff x).mp h).2

/-- An infinity is known by its sign. -/
theorem eq_of_isInf {y : Word} (hx : isInf x = true) (hy : isInf y = true) (hs : dSign x = dSign y) : x = y := by
  obtain ⟨hex, hfx⟩ := (isInf_iff x).mp hx
  obtain ⟨hey, hfy⟩ := (isInf_iff y).mp hy
  rw [← mkDouble_fields x, ← mkDouble_fields y, hs, hex, hey, hfx, hfy]

/-- The zero of the sign of a double. -/
theorem fields_and_sign (x : Word) : dExp (x &&& 0x8000000000000000) = 0 ∧ dFrac (x &&& 0x8000000000000000) = 0 ∧
    dSign (x &&& 0x8000000000000000) = dSign x := by
  refine ⟨?_, ?_, ?_⟩
  · rw [dExp, BitVec.extractLsb'_and]
    simp
  · rw [dFrac, BitVec.extractLsb'_and]
    simp
  · simp [dSign]

theorem isDen_denToZero (x : Word) : isDen (denToZero x) = false := by
  unfold denToZero
  split
  · rw [← Bool.not_eq_true, isDen_iff]
    exact fun h => h.2 (fields_and_sign x).2.1
  · rwa [← Bool.not_eq_true]

theorem denToZero_of_not_den (h : isDen x = false) : denToZero x = x := by rw [denToZero, if_neg (by rw [h]; decide)]

end

/-! ## Operands -/

section
variable {f x : Word}

theorem fpOperand_of_not_den (h : isDen x = false) : fpOperand f x = x := by
  rw [fpOperand, denToZero_of_not_den h, ite_self]

/-- Any but a denormal with DNZ = 1 is taken as it is. -/
theorem fpOperand_eq_self (h : isDen x = true → f.getLsbD 48 = false) : fpOperand f x = x := by
  cases hd : isDen x with
  | false => exact fpOperand_of_not_den hd
  | true => exact if_neg (by rw [dnz, h hd]; decide)

theorem fpOperand_of_dnz (h : f.getLsbD 48 = true) : fpOperand f x = denToZero x := if_pos h

theorem fpOperand_of_nonFinite (h : dExp x = 2047) : fpOperand f x = x :=
  fpOperand_of_not_den (by rw [← Bool.not_eq_true, isDen_iff]; omega)

/-- An operand is taken with its own sign, and a finite one stays finite. -/
theorem fpOperand_fields (f x : Word) : dSign (fpOperand f x) = dSign x ∧ dExp (fpOperand f x) = dExp x := by
  cases hd : isDen x with
  | false => rw [fpOperand_of_not_den hd]; exact ⟨rfl, rfl⟩
  | true =>
    obtain ⟨he, -, hs⟩ := fields_and_sign x
    rw [fpOperand, denToZero, if_pos hd]
    split
    · exact ⟨hs, he.trans ((isDen_iff x).mp hd).1.symm⟩
    · exact ⟨rfl, rfl⟩

theorem isNan_fpOperand (f x : Word) : isNan (fpOperand f x) = isNan x := by
  by_cases h : dExp x = 2047
  · rw [fpOperand_of_nonFinite h]
  · rw [isNan, isNan, (fpOperand_fields f x).2, beq_false_of_ne h, Bool.false_and, Bool.false_and]

theorem isInf_fpOperand (f x : Word) : isInf (fpOperand f x) = isInf x := by
  by_cases h : dExp x = 2047
  · rw [fpOperand_of_nonFinite h]
  · rw [isInf, isInf, (fpOperand_fields f x).2, beq_false_of_ne h, Bool.false_and, Bool.false_and]

end

/-! ## The sum and its exceptions -/

section
variable (f a b free : Word)

theorem fpAdd_value :
    (fpAdd f a b free).value = (addDouble (dyn f) (fpOperand f a) (fpOperand f b) free).1 := by
  unfold fpAdd
  dsimp only
  split <;> rfl

/-- Operands that are no denormals are added as they are, and trap by their exceptions (R202). -/
theorem fpAdd_of_not_den {a b : Word} (ha : isDen a = false) (hb : isDen b = false) : fpAdd f a b free =
    { value := (addDouble (dyn f) a b free).1, flags := (addDouble (dyn f) a b free).2,
      traps := fpTraps f (addDouble (dyn f) a b free).2 } := by
  simp [fpAdd, ha, hb, fpOperand_of_not_den]

variable {f a b free}

/-- A denormal operand that traps (R623). -/
theorem fpAdd_den (hd : isDen a = true ∨ isDen b = true) (hf : f.getLsbD 1 = true ∨ f.getLsbD 48 = false) :
    (fpAdd f a b free).flags = {} ∧ (fpAdd f a b free).traps = { inv := true } := by
  have hc : ((isDen a || isDen b) && ((excCtl f).getLsbD 1 || !dnz f)) = true := by
    simpa [excCtl, dnz] using ⟨hd, hf⟩
  rw [fpAdd, if_pos hc]
  exact ⟨rfl, rfl⟩

/-- With DNZ = 1 the operands count as what DNZ makes of them (R191). -/
theorem fpAdd_dnz (hz : f.getLsbD 48 = true) :
    (fpAdd f a b free).value = (fpAdd f (denToZero a) (denToZero b) free).value ∧
      (f.getLsbD 1 = false → fpAdd f a b free = fpAdd f (denToZero a) (denToZero b) free) := by
  have hsum := fpAdd_of_not_den f free (isDen_denToZero a) (isDen_denToZero b)
  refine ⟨?_, fun hc => ?_⟩
  · rw [fpAdd_value, fpOperand_of_dnz hz, fpOperand_of_dnz hz, hsum]
  · have hnone : ((isDen a || isDen b) && ((excCtl f).getLsbD 1 || !dnz f)) = false := by
      simp [excCtl, dnz, hz, -BitVec.getLsbD_eq_getElem, hc]
    rw [hsum, fpAdd, hnone, fpOperand_of_dnz hz, fpOperand_of_dnz hz]
    rfl

/-! ### Finite operands -/

theorem fpTraps_none (f : Word) : fpTraps f {} = {} := by simp [fpTraps]

theorem addDouble_finite (mode : BitVec 2) (ha : dExp a ≠ 2047) (hb : dExp b ≠ 2047) : addDouble mode a b free =
    if exactValue a + exactValue b = 0 then
      (mkDouble (if dSign a == dSign b then dSign a else mode == 1) 0 0, {})
    else roundExact mode (exactValue a + exactValue b) := by
  rw [addDouble, if_neg (by simp [ha, hb])]

section
variable (ha : dExp a ≠ 2047) (hb : dExp b ≠ 2047) (hda : isDen a = false) (hdb : isDen b = false)
include ha hb hda hdb

/-- A sum that is not zero is rounded. -/
theorem fpAdd_rounded (hv : exactValue a + exactValue b ≠ 0) : fpAdd f a b free =
    { value := (roundExact (dyn f) (exactValue a + exactValue b)).1
      flags := (roundExact (dyn f) (exactValue a + exactValue b)).2
      traps := fpTraps f (roundExact (dyn f) (exactValue a + exactValue b)).2 } := by
  rw [fpAdd_of_not_den f free hda hdb, addDouble_finite _ ha hb, if_neg hv]

/-- A zero sum raises nothing. -/
theorem fpAdd_zero (hv : exactValue a + exactValue b = 0) : fpAdd f a b free =
    { value := mkDouble (if dSign a == dSign b then dSign a else dyn f == 1) 0 0, flags := {}, traps := {} } := by
  rw [fpAdd_of_not_den f free hda hdb, addDouble_finite _ ha hb, if_pos hv, fpTraps_none]

end

theorem mkDouble_zero (neg : Bool) : mkDouble neg 0 0 = if neg then 0x8000000000000000 else 0 := by
  cases neg <;> rfl

/-! ### NaNs and infinities -/

theorem addDouble_nonFinite (mode : BitVec 2) (h : dExp a = 2047 ∨ dExp b = 2047) :
    addDouble mode a b free = (nonFiniteSum a b free, { inv := true }) := by
  rw [addDouble, if_pos (by simpa using h)]

/-- What DNZ makes of a denormal operand does not matter beside a NaN or an infinity. -/
theorem fpAdd_value_nonFinite (h : dExp a = 2047 ∨ dExp b = 2047) : (fpAdd f a b free).value = nonFiniteSum a b free := by
  have hx : dExp (fpOperand f a) = 2047 ∨ dExp (fpOperand f b) = 2047 := by
    rwa [(fpOperand_fields f a).2, (fpOperand_fields f b).2]
  rw [nonFinite_iff, nonFinite_iff] at h
  rw [fpAdd_value, addDouble_nonFinite _ hx]
  simp only [nonFiniteSum, isNan_fpOperand, isInf_fpOperand, (fpOperand_fields f _).1]
  split
  case isTrue => rfl
  case isFalse hn =>
    simp only [Bool.or_eq_true, not_or] at hn
    split
    case isTrue ha => exact fpOperand_of_nonFinite ((nonFinite_iff a).mpr (.inr ha))
    case isFalse ha => exact fpOperand_of_nonFinite ((nonFinite_iff b).mpr (h.resolve_left (not_or.mpr ⟨hn.1.1, ha⟩)))

theorem quiet_freeNan (x : Word) : dExp (freeNan x) = 2047 ∧ (freeNan x).getLsbD 51 = true := by
  have hexp : (freeNan x).extractLsb' 52 11 = BitVec.allOnes 11 := by
    rw [freeNan, BitVec.extractLsb'_or]
    exact BitVec.or_allOnes
  exact ⟨congrArg BitVec.toNat hexp, by simp [freeNan]⟩

theorem nonFiniteSum_nan (h : isNan a = true ∨ isNan b = true) : nonFiniteSum a b free = freeNan free := by
  rw [nonFiniteSum, if_pos (by simp only [Bool.or_eq_true, h, true_or])]

theorem nonFiniteSum_opposite (ha : isInf a = true) (hb : isInf b = true) (hs : dSign a ≠ dSign b) :
    nonFiniteSum a b free = freeNan free := by
  rw [nonFiniteSum, if_pos (by simp [ha, hb, hs])]

/-- An infinity beside anything but a NaN and the other infinity is the sum, on the left or on the right. -/
theorem nonFiniteSum_inf (hn : isNan a = false ∧ isNan b = false)
    (hs : isInf a = true → isInf b = true → dSign a = dSign b) :
    (isInf a = true → nonFiniteSum a b free = a) ∧ (isInf b = true → nonFiniteSum a b free = b) := by
  have hsum : nonFiniteSum a b free = if isInf a then a else b := by
    rw [nonFiniteSum, if_neg]
    simp only [hn.1, hn.2, Bool.false_or, Bool.and_eq_true, bne_iff_ne]
    exact fun h => h.2 (hs h.1.1 h.1.2)
  rw [hsum]
  refine ⟨fun ha => if_pos ha, fun hb => ?_⟩
  split
  case isTrue ha => exact eq_of_isInf ha hb (hs ha hb)
  case isFalse => rfl

end

/-! ## The traps -/

theorem excCtl_getLsbD_one (f : Word) : (excCtl f).getLsbD 1 = true ↔ excCtl f = 2 ∨ excCtl f = 3 := by
  generalize excCtl f = c
  revert c
  decide

theorem not_excCtl_getLsbD_one (f : Word) : (excCtl f).getLsbD 1 = false ↔ excCtl f = 0 ∨ excCtl f = 1 := by
  generalize excCtl f = c
  revert c
  decide

/-- Which exceptions trap (R202, R623 to R625, R628; D12). -/
theorem fpTraps_iff (f : Word) (x : FpFlags) :
    ((fpTraps f x).inv = true ↔ x.inv = true ∧ (excCtl f = 2 ∨ excCtl f = 3 ∨ invd f = false)) ∧
    ((fpTraps f x).ovf = true ↔ x.ovf = true ∧ (excCtl f = 2 ∨ excCtl f = 3 ∨ ovfd f = false)) ∧
    ((fpTraps f x).unf = true ↔ x.unf = true ∧
      (excCtl f = 2 ∨ ((excCtl f = 0 ∨ excCtl f = 1) ∧ (unfd f = false ∨ unfz f = false)))) ∧
    ((fpTraps f x).ine = true ↔ x.ine = true ∧ excCtl f = 0 ∧ ined f = false) := by
  simp only [fpTraps, Bool.and_eq_true, Bool.or_eq_true, Bool.not_eq_true', beq_iff_eq, excCtl_getLsbD_one,
    not_excCtl_getLsbD_one, or_assoc, true_and]

/-! ## The obligation -/

/-- Settles O28: exact sums, rounded ones, denormal operands, NaNs and infinities, overflow, traps. -/
theorem exactSums : Obligations.ExactSums := by
  refine ⟨?exact, ?rounded, ?denormal, ?nonFinite, ?overflow, ?traps⟩
  case exact =>
    intro f a b c free ha hb hda hdb hc hn hsum
    have hne : exactValue a + exactValue b ≠ 0 := by
      have hl := (exactValue_normal_bounds hn).1
      have hpos : 0 < 2 ^ (52 + (dExp c - 1)) := by positivity
      omega
    rw [fpAdd_rounded ha hb hda hdb hne, ← hsum, roundExact_exactValue _ hc hn, fpTraps_none]
  case rounded =>
    intro f a b free ha hb hd v o
    have hvalue : o.value = (addDouble (dyn f) a b free).1 := by
      rw [← fpOperand_eq_self fun h => hd (.inl h), ← fpOperand_eq_self (x := b) fun h => hd (.inr h)]
      exact fpAdd_value f a b free
    rw [addDouble_finite _ ha hb] at hvalue
    refine ⟨fun hv => ?_, fun hv hs => ?_, fun hv => ?_, fun hda hdb => ?_⟩
    · rw [hvalue, if_neg hv]
      rfl
    · rw [hvalue, if_neg hv, roundExact_below _ hs]
    · rw [hvalue, if_pos hv, mkDouble_zero]
      simp only [beq_iff_eq]
      rfl
    · have hflags (hv : v ≠ 0) := congrArg FpOutcome.flags (fpAdd_rounded (f := f) (free := free) ha hb hda hdb hv)
      refine ⟨hflags, fun hv hs => (hflags hv).trans ?_, fun hv => ?_⟩
      · exact congrArg Prod.snd (roundExact_below _ hs)
      · rw [show o = _ from fpAdd_zero ha hb hda hdb hv]
        exact ⟨rfl, rfl⟩
  case denormal => exact fun f a b free hd => ⟨fpAdd_den hd, fpAdd_dnz⟩
  case nonFinite =>
    intro f a b free o quiet
    have hvalue (hx : dExp a = 2047 ∨ dExp b = 2047) : o.value = nonFiniteSum a b free := fpAdd_value_nonFinite hx
    have hquiet (hx : dExp a = 2047 ∨ dExp b = 2047) (h : nonFiniteSum a b free = freeNan free) : quiet := by
      have hnan : o.value = freeNan free := (hvalue hx).trans h
      unfold quiet
      rw [hnan]
      exact quiet_freeNan free
    refine ⟨fun hn => hquiet ?_ (nonFiniteSum_nan hn), fun hia hib hs => hquiet ?_ (nonFiniteSum_opposite hia hib hs),
      fun hia hnb hs => (hvalue ?_).trans ((nonFiniteSum_inf ⟨isNan_of_isInf hia, hnb⟩ fun _ => hs).1 hia),
      fun hib hna hs => (hvalue ?_).trans ((nonFiniteSum_inf ⟨hna, isNan_of_isInf hib⟩ fun ha _ => hs ha).2 hib),
      fun hx hda hdb => ?_⟩
    · exact hn.imp (fun h => (nonFinite_iff a).mpr (.inl h)) fun h => (nonFinite_iff b).mpr (.inl h)
    · exact .inl ((nonFinite_iff a).mpr (.inr hia))
    · exact .inl ((nonFinite_iff a).mpr (.inr hia))
    · exact .inr ((nonFinite_iff b).mpr (.inr hib))
    · have ho : o = _ := fpAdd_of_not_den f free hda hdb
      rw [ho, addDouble_nonFinite _ hx]
  case overflow =>
    intro f a b free ha hb hda hdb v o m away sign
    by_cases hv : v = 0
    case pos =>
      have hsum : o = _ := fpAdd_zero ha hb hda hdb hv
      have hovf : o.flags.ovf = (roundExact m v).2.ovf := by rw [hsum, hv, roundExact_below m (by decide)]
      exact ⟨hovf ▸ ovf_roundExact_iff m v, fun ho => absurd ho (by rw [hsum]; exact Bool.false_ne_true)⟩
    case neg =>
      have hsum : o = _ := fpAdd_rounded ha hb hda hdb hv
      have hflags : o.flags = (roundExact m v).2 := congrArg FpOutcome.flags hsum
      refine ⟨hflags ▸ ovf_roundExact_iff m v, fun ho => ?_⟩
      have hround : roundExact m v = _ := roundExact_ovf (hflags ▸ ho)
      refine ⟨hflags.trans (congrArg Prod.snd hround), ?_⟩
      exact (congrArg FpOutcome.value hsum).trans ((congrArg Prod.fst hround).trans (overflowResult_eq m hv))
  case traps =>
    intro f a b free hda hdb
    rw [fpAdd_of_not_den f free hda hdb]
    exact fpTraps_iff f _

end Sys2Proof.Machine
end

section
/-! Memory when no access is open: what a read gives and what a write leaves for later reads. -/

namespace Sys2Proof.Machine

/-! ## Bytes of a value read -/

/-- Past the bytes read a value is zero. -/
theorem byteOf_readBytes_above (m : List Host.Cell) (a : Nat) {n i : Nat} (hn : n ≤ 32) (hi : n ≤ i) :
    byteOf (readBytes m a n) i = 0 := by
  refine BitVec.eq_of_getLsbD_eq fun k hk => ?_
  rw [byteOf, BitVec.getLsbD_extractLsb', readBytes_getLsbD m a hn]
  simp [show ¬8 * i + k < 8 * n by omega]

/-- Every byte of a value read: that of memory inside, zero above (R215). -/
theorem byteOf_readBytes_ite (m : List Host.Cell) (a : Nat) {n : Nat} (hn : n ≤ 32) (i : Nat) :
    byteOf (readBytes m a n) i = if i < n then memRead m (a + i) else 0 := by
  split
  · exact byteOf_readBytes m a hn ‹_›
  · exact byteOf_readBytes_above m a hn (by omega)

/-! ## Accesses to memory space -/

section
variable {s : State} {pa : PAddr} {n : Nat}

theorem loadPhys_memory (hio : isIo pa = false) (n : Nat) (nc : Bool) :
    s.loadPhys pa n nc = s.memLoad pa n (isNc nc pa) := by
  rw [State.loadPhys, hio, if_neg Bool.false_ne_true]

theorem storePhys_memory (hio : isIo pa = false) (hm : s.memExists pa n = true) (hn : n ≠ 0) (v : Vec) (nc : Bool) :
    s.storePhys pa n v nc = s.memStore pa n v (isNc nc pa) := by
  rw [State.storePhys, if_neg hn, hio, if_neg Bool.false_ne_true, if_pos hm]

theorem storePhys_zero (s : State) (pa : PAddr) (v : Vec) (nc : Bool) : s.storePhys pa 0 v nc = s := if_pos rfl

/-- Memory that exists ends below 2^46 (R213). -/
theorem memExists_le (hs : s.memoryOk) (hm : s.memExists pa n = true) : loc pa + n ≤ 2 ^ 46 :=
  (of_decide_eq_true hm).trans hs.1

/-- A non-cacheable read gives the newest bytes, whatever stores have taken no effect yet (R217). -/
theorem memLoad_nc_bytes (hd : s.dcErrors = []) (pa : PAddr) (n : Nat) :
    (s.memLoad pa n true).1 = readBytes s.mem (loc pa) n := by
  simp [State.memLoad, lineLeaves_none hd]

/-- With a clean data cache a read gives the bytes of memory, if it is not cacheable or no store is without effect. -/
theorem loadPhys_bytes (hd : s.cleanCache) (hio : isIo pa = false) {nc : Bool}
    (ho : isNc nc pa = true ∨ s.ncRecent = []) (n : Nat) :
    (s.loadPhys pa n nc).1 = readBytes s.mem (loc pa) n := by
  rw [loadPhys_memory hio]
  cases hnc : isNc nc pa with
  | true => exact memLoad_nc_bytes hd.1 pa n
  | false =>
    have hn : s.ncRecent = [] := ho.resolve_left (by rw [hnc]; exact Bool.false_ne_true)
    rw [memLoad_cached hd hn]

/-- With nothing open a read leaves the state, but that the line of a non-cacheable one is clean. -/
theorem loadPhys_state (h : s.settled pa n) (nc : Bool) :
    (s.loadPhys pa n nc).2 = if isNc nc pa then s.lineClean (loc pa / 128) else s := by
  obtain ⟨hio, -, hn, he, hw, hd⟩ := h
  rw [loadPhys_memory hio]
  cases isNc nc pa with
  | true =>
    rw [memLoad_nc hd.1 hn he, if_pos rfl]
    exact closeMerge_none (s := s.lineClean _) hw
  | false => rw [memLoad_cached hd hn, if_neg Bool.false_ne_true]

end

/-! ## What a write leaves -/

/-- Memory after a write of the low `n` bytes of `v` at `a`. -/
def Overwritten (m m' : List Host.Cell) (a n : Nat) (v : Vec) : Prop :=
  ∀ b, memRead m' b = if a ≤ b ∧ b < a + n then byteOf v (b - a) else memRead m b

theorem overwritten_writeBytes {m : List Host.Cell} {a n : Nat} (v : Vec) (hw : Memory.wf m = true)
    (h : a + n ≤ 2 ^ 46) : Overwritten m (writeBytes m a n v) a n v := fun _ => memRead_writeBytes v hw h

/-- `t` is `s` after a store of `n` bytes of `v` at `a`, one that is `nc` or not: only memory and the records of order
have changed, and no store is without effect but a non-cacheable one. -/
structure Stored (s t : State) (nc : Bool) (a n : Nat) (v : Vec) : Prop where
  mem : t.mem = writeBytes s.mem a n v
  same : t = { s with
    mem := t.mem, codeHist := t.codeHist, ncRecent := t.ncRecent, icache := t.icache, unflushed := t.unflushed
    dcDirty := t.dcDirty, mergeWait := t.mergeWait }
  effect : nc = false → t.ncRecent = []

section
variable {s t : State} {pa : PAddr} {n : Nat}

theorem stored_memStore (h : s.settled pa n) (v : Vec) (nc : Bool) :
    Stored s (s.memStore pa n v nc) nc (loc pa) n v := by
  obtain ⟨-, -, hn, he, -, hd⟩ := h
  unfold State.memStore
  cases nc with
  | true =>
    rw [if_pos rfl, ncStore_settled hd.1 he]
    simp only [State.putWaiting, lineLeaves_none hd.1]
    refine ⟨rfl, ?_, fun h => by cases h⟩
    cases s; cases he; rfl
  | false =>
    rw [if_neg Bool.false_ne_true, cachedStore_settled hd hn]
    refine ⟨rfl, ?_, fun _ => hn⟩
    cases s; cases he; rfl

theorem stored_storePhys (h : s.settled pa n) (v : Vec) (nc : Bool) :
    Stored s (s.storePhys pa n v nc) (isNc nc pa) (loc pa) n v := by
  by_cases hn : n = 0
  · subst hn
    rw [storePhys_zero]
    obtain ⟨-, -, hr, -⟩ := h
    exact ⟨rfl, rfl, fun _ => hr⟩
  · obtain ⟨hio, hm, -⟩ := id h
    rw [storePhys_memory hio hm hn]
    exact stored_memStore h v _

theorem Stored.cleanCache {nc : Bool} {a : Nat} {v : Vec} (h : Stored s t nc a n v) (hd : s.cleanCache) :
    t.cleanCache := by
  rw [h.same]
  exact hd

/-- A later read, through any address, sees the bytes written and the others as they were. -/
theorem loadPhys_overwritten {m : List Host.Cell} {a : Nat} {v : Vec} (hm : Overwritten m t.mem a n v)
    (hd : t.cleanCache) {pa : PAddr} {nc : Bool} (hio : isIo pa = false) (ho : isNc nc pa = true ∨ t.ncRecent = [])
    {k i : Nat} (hk : k ≤ 32) (hi : i < k) :
    byteOf (t.loadPhys pa k nc).1 i =
      if a ≤ loc pa + i ∧ loc pa + i < a + n then byteOf v (loc pa + i - a) else memRead m (loc pa + i) := by
  rw [loadPhys_bytes hd hio ho, byteOf_readBytes _ _ hk hi]
  exact hm _

/-- With nothing open the write of an atomic is a store that has taken effect (R490). -/
theorem atomicStore_eq_storePhys (h : s.settled pa n) (hn : n ≠ 0) (v : Vec) :
    s.atomicStore pa n v = { s.storePhys pa n v false with ncRecent := [] } := by
  obtain ⟨hio, hm, hr, he, -, hd⟩ := h
  rw [atomicStore_settled hd hr he, storePhys_memory hio hm hn]
  rfl

theorem stored_atomicStore (h : s.settled pa n) (hn : n ≠ 0) (v : Vec) :
    Stored s (s.atomicStore pa n v) false (loc pa) n v := by
  obtain ⟨hmem, hsame, -⟩ := stored_storePhys h v false
  rw [atomicStore_eq_storePhys h hn]
  generalize s.storePhys pa n v false = t at hmem hsame
  exact ⟨hmem, by rw [hsame], fun _ => rfl⟩

/-- Where no store is without effect, a byte that another agent stores is what memory then holds. -/
theorem memRead_agentStore (hd : t.dcErrors = []) (hr : t.ncRecent = []) (hw : Memory.wf t.mem = true) (a : BitVec 46)
    (b : Byte) : memRead (t.agentStore a b).mem a.toNat = b := by
  have hm : (t.agentStore a b).mem = writeBytes t.mem a.toNat 1 (b.setWidth 256) := by
    have hf : (t.lineClean (a.toNat / 128)).floats a.toNat 1 = false := floats_none hr _ _
    simp only [State.agentStore, lineLeaves_none hd, State.putDrawn, State.putNow, hf, Bool.false_eq_true, if_false,
      State.putBytes_mem, State.lineClean_mem]
  rw [hm, memRead_writeBytes _ hw a.isLt, if_pos (by omega), Nat.sub_self]
  exact BitVec.eq_of_getLsbD_eq fun i hi => by simp [byteOf, hi, Nat.lt_trans hi (by decide : 8 < 256)]

end

/-! ## The obligation -/

/-- Settles O32: a read, the bytes a write leaves, what it changes beside them, and the reads after it; the write of an
atomic is a store with no record of it as one without effect. -/
theorem memoryReadWrite : Obligations.MemoryReadWrite := by
  intro s pa n v nc hn h
  obtain ⟨hio, hm, hr, -, -, hd⟩ := id h
  refine ⟨⟨loadPhys_state h nc, fun i _ => ?_⟩, fun hok => ?_⟩
  · rw [loadPhys_bytes hd hio (.inr hr)]
    exact byteOf_readBytes_ite s.mem (loc pa) hn i
  have hle := memExists_le hok hm
  have written {t : State} {c : Bool} (ht : Stored s t c (loc pa) n v) : Overwritten s.mem t.mem (loc pa) n v :=
    ht.mem ▸ overwritten_writeBytes v hok.2 hle
  have ht := stored_storePhys h v nc
  refine ⟨written ht, ht.same, fun hn0 => ?_, fun pa' m nc' ho hm' hio' i hi => ?_⟩
  · have hu := stored_atomicStore h hn0 v
    have hwf : Memory.wf (s.atomicStore pa n v).mem = true := hu.mem ▸ writeBytes_wf n v hok.2 hle
    exact ⟨atomicStore_eq_storePhys h hn0 v, memRead_agentStore (hu.cleanCache hd).1 (hu.effect rfl) hwf,
      fun pa' m nc' hm' hio' i hi =>
        loadPhys_overwritten (written hu) (hu.cleanCache hd) hio' (.inr (hu.effect rfl)) hm' hi⟩
  · exact loadPhys_overwritten (written ht) (ht.cleanCache hd) hio' (ho.symm.imp_right ht.effect) hm' hi
end Sys2Proof.Machine
end

section
/-! That every instruction keeps memory canonical and inside memory space: most do not touch it, a store writes where
memory exists. -/

namespace Sys2Proof.Machine

/-! ## Memory space and its size -/

/-- What `memoryOk` speaks of: the platform, with the size of memory, and memory. -/
def State.space (s : State) := (s.plat, s.mem)

section
variable {s t : State}

theorem memoryOk_of_space (h : t.space = s.space) (hs : s.memoryOk) : t.memoryOk := by
  obtain ⟨hp, hm⟩ := Prod.mk.inj h
  rwa [State.memoryOk, hp, hm]

theorem space_of_keptByTime (h : t.keptByTime = s.keptByTime) : t.space = s.space := by
  simp only [State.keptByTime, Prod.mk.injEq] at h
  obtain ⟨⟨-, -, -, -, -, hm, -, -, hp⟩, -⟩ := h
  exact Prod.ext hp hm

theorem space_of_kept (h : t.kept = s.kept) : t.space = s.space := space_of_keptByTime (keptByTime_of_kept h)

/-- An operation of the memory system changes no parameter of the platform. -/
theorem memoryOk_of_withoutMemory (h : t.withoutMemory = s.withoutMemory)
    (hw : Memory.wf s.mem = true → Memory.wf t.mem = true) (hs : s.memoryOk) : t.memoryOk := by
  have hp : t.plat = s.plat := show t.withoutMemory.plat = s.withoutMemory.plat from congrArg State.plat h
  exact ⟨hp ▸ hs.1, hw hs.2⟩

end

section
variable (s : State)

@[simp] theorem space_advance : s.advance.space = s.space := rfl
@[simp] theorem space_drawn : s.drawn.space = s.space := rfl
@[simp] theorem space_transferTo (a : Word) : (s.transferTo a).space = s.space := rfl
@[simp] theorem space_fallThrough : s.fallThrough.space = s.space := rfl
@[simp] theorem space_orFpcr (b : Word) : (s.orFpcr b).space = s.space := rfl
@[simp] theorem space_setLock (pa : PAddr) (n : Nat) : (s.setLock pa n).space = s.space := rfl
@[simp] theorem space_endLock (b : Bool) : (s.endLock b).space = s.space := rfl
@[simp] theorem space_raiseArith (p b : Word) (r : BitVec 5) : (s.raiseArith p b r).space = s.space := rfl
@[simp] theorem space_raiseBadIva (a : Word) : (s.raiseBadIva a).space = s.space := rfl
@[simp] theorem space_raiseIdaMatch (a : Word) : (s.raiseIdaMatch a).space = s.space := rfl

@[simp] theorem space_writeReg (r : Reg) (v : Word) : (s.writeReg r v).space = s.space := by simp [State.space]
@[simp] theorem space_writeV (r : Reg) (v : Vec) (k : DataKind) : (s.writeV r v k).space = s.space := by
  simp [State.space]
@[simp] theorem space_writeF (r : Reg) (v : Word) (k : DataKind) : (s.writeF r v k).space = s.space := by
  simp [State.space]
@[simp] theorem space_useF (r : Reg) (k : DataKind) : (s.useF r k).2.space = s.space := space_of_kept (kept_useF s r k)
@[simp] theorem space_useV (r : Reg) (k : DataKind) : (s.useV r k).2.space = s.space := space_of_kept (kept_useV s r k)

theorem space_atTarget (a : Word) {go : State → State} (h : ∀ u, (go u).space = u.space) :
    (s.atTarget a go).space = s.space := by
  obtain ⟨u, hu, ha⟩ := atTarget_cases s a go
  have hs : u.space = s.space := by obtain rfl | rfl := hu <;> rfl
  obtain ha | ha := ha <;> rw [ha]
  · exact hs
  · exact (h u).trans hs

@[simp] theorem space_finishScalar (fc : Reg) (mixed : Bool) (o : FpOutcome) :
    (s.finishScalar fc mixed o).space = s.space := by
  unfold State.finishScalar
  dsimp only
  split <;> simp

@[simp] theorem space_finishVector (fc : Reg) (mixed : Bool) (o0 o1 o2 o3 : FpOutcome) :
    (s.finishVector fc mixed o0 o1 o2 o3).space = s.space := by
  unfold State.finishVector
  dsimp only
  split <;> simp

theorem space_enterSysCallB (fn : BitVec 25) : (s.enterSysCallB fn).space = s.space := by
  unfold State.enterSysCallB
  dsimp only
  split <;> rfl

theorem space_csrRead (k : Csr) : (s.csrRead k).2.space = s.space := by
  unfold State.csrRead
  split
  · rfl
  · split <;> rfl

end

/-! ## Accesses -/

section
variable {s : State} {pa : PAddr} {n : Nat}

theorem memoryOk_loadPhys (hs : s.memoryOk) (pa : PAddr) (n : Nat) (nc : Bool) : (s.loadPhys pa n nc).2.memoryOk :=
  memoryOk_of_withoutMemory (withoutMemory_loadPhys s pa n nc) (loadPhys_wf pa n nc) hs

theorem mem_ioStore (s : State) (pa : PAddr) (n : Nat) (x : Word) (r : Ior) : (s.ioStore pa n x r).mem = s.mem := by
  unfold State.ioStore
  cases r with
  | mailBox i =>
    dsimp only
    split
    · split <;> rfl
    · rfl
  | _ => rfl

/-- A store writes where memory exists, or changes none: to an I/O register, or where nothing answers (R331). -/
theorem storePhys_wf (hs : s.memoryOk) (pa : PAddr) (n : Nat) (v : Vec) (nc : Bool) :
    Memory.wf (s.storePhys pa n v nc).mem = true := by
  have hw : Memory.wf s.mem = true := hs.2
  unfold State.storePhys
  split
  · exact hw
  · split
    · split
      · split
        · rw [mem_ioStore]; exact hw
        · exact hw
      · exact hw
    · split
      · exact memStore_wf v _ hw (memExists_le hs ‹_›)
      · exact hw

theorem memoryOk_storePhys (hs : s.memoryOk) (pa : PAddr) (n : Nat) (v : Vec) (nc : Bool) :
    (s.storePhys pa n v nc).memoryOk :=
  memoryOk_of_withoutMemory (withoutMemory_storePhys s pa n v nc) (fun _ => storePhys_wf hs pa n v nc) hs

/-- The store of an atomic looks at no size: its checks have. -/
theorem memoryOk_atomicStore (hs : s.memoryOk) (h : loc pa + n ≤ 2 ^ 46) (v : Vec) : (s.atomicStore pa n v).memoryOk :=
  memoryOk_of_withoutMemory (withoutMemory_atomicStore s pa n v) (fun hw => atomicStore_wf v hw h) hs

/-- An atomic that passes its checks reaches memory that exists (R242, R424). -/
theorem memExists_of_check {t : State} {q : MemReq} (hc : q.cls = .atomic) (hr : q.reads = true)
    (h : s.check q = .ok pa t) : s.memExists pa q.size = true := by
  obtain ⟨hclass, hanswer⟩ := check_legal h
  have hio : isIo pa = false := by simpa [MemReq.classIllegal, hc] using hclass
  simpa [State.unanswered, hio, hr] using hanswer

theorem memoryOk_fetchAndOp (hs : s.memoryOk) (h : loc pa + n ≤ 2 ^ 46) (pc : Word) (ra : Reg) (op : AtomicOp)
    (inco : Bool) : (s.fetchAndOp pc ra pa n op inco).memoryOk := by
  have hstored (v : Vec) : ((s.loadPhys pa n false).2.atomicStore pa n v).memoryOk :=
    memoryOk_atomicStore (memoryOk_loadPhys hs pa n false) h v
  unfold State.fetchAndOp
  dsimp only
  split
  · exact memoryOk_of_space (space_writeReg _ ra _) (hstored _)
  · exact memoryOk_of_space (space_writeReg _ ra _) (hstored _)

theorem memoryOk_lineEffect (hs : s.memoryOk) (f : LineRule) (pa : PAddr) : (s.lineEffect f pa).memoryOk := by
  have hline :
      (if f.leaves then s.flushLine (loc pa / 128) else if f.fills then s.fillLine (loc pa) else s).memoryOk := by
    split
    · exact memoryOk_of_withoutMemory (withoutMemory_flushLine s _) (flushLine_wf _) hs
    · split
      · exact memoryOk_of_withoutMemory (withoutMemory_fillLine s _) (fillLine_wf _) hs
      · exact hs
  unfold State.lineEffect
  dsimp only
  split <;> exact hline

end

/-! ## Checks -/

/-- The checks of an access answer with memory as it was. -/
def Checked.KeepsSpace (s : State) : Checked → Prop
  | .ok _ t => t.space = s.space
  | .trap t => t.space = s.space
  | .stuck _ => True

section
variable {s : State}

theorem Checked.KeepsSpace.of_space {u : State} {c : Checked} (h : c.KeepsSpace u) (hu : u.space = s.space) :
    c.KeepsSpace s := by
  cases c with
  | ok pa t => exact Eq.trans h hu
  | trap t => exact Eq.trans h hu
  | stuck f => trivial

theorem keepsSpace_of_keeps {c : Checked} {pa : PAddr} (h : c.Keeps s pa) : c.KeepsSpace s := by
  cases c with
  | ok p t => exact space_of_kept h.2
  | trap t => exact space_of_kept h
  | stuck f => trivial

theorem keepsSpace_translate (s : State) (q : MemReq) : (s.translate q).KeepsSpace s := by
  obtain ⟨pa, h⟩ | ⟨t, h, hk⟩ | h := translate_cases s q <;> rw [h]
  · rfl
  · exact space_of_kept hk
  · trivial

theorem keepsSpace_accessCheck (s : State) (q : MemReq) (pa : PAddr) : (s.accessCheck q pa).KeepsSpace s := by
  obtain ⟨t, h, hk⟩ | ⟨t, h, hk⟩ := accessCheck_cases s q pa <;> rw [h] <;> exact space_of_kept hk

theorem keepsSpace_check (s : State) (q : MemReq) : (s.check q).KeepsSpace s := by
  obtain ⟨pa, t, h, hk⟩ | ⟨t, h, hk⟩ | h := check_cases s q <;> rw [h]
  · exact space_of_kept hk
  · exact space_of_kept hk
  · trivial

theorem keepsSpace_evictAnswer (s : State) (q : MemReq) (pa : PAddr) : (s.evictAnswer q pa).KeepsSpace s := by
  unfold State.evictAnswer
  split
  · exact space_of_kept ((kept_raiseDataPhys _ _ _ _ _).trans (kept_scError s 14))
  · split
    · exact keepsSpace_of_keeps (armedError_keeps s q pa)
    · rfl

end

/-! ## The shared shapes -/

/-- Every next state of the outcome has its memory in canonical form and in memory space, if `s` has. -/
def KeepsMemory (s : State) (r : Result) : Prop := ∀ t, r = .next t → s.memoryOk → t.memoryOk

section
variable {s : State}

theorem keeps_next {t : State} (h : s.memoryOk → t.memoryOk) : KeepsMemory s (.next t) :=
  fun _ ht => by cases ht; exact h

theorem keeps_fault (f : Fault) : KeepsMemory s (.fault f) := fun _ ht => by cases ht

theorem keeps_atDecode {ill : Option Bool} {p : Pipe} {run : Result} (h : KeepsMemory s run) :
    KeepsMemory s (s.atDecode ill p run) := by
  intro t ht
  obtain ⟨b, -, hd⟩ | ⟨-, -, hd⟩ | ⟨-, -, -, hd⟩ | ⟨-, -, hd⟩ := atDecode_cases s ill p run <;> rw [hd] at ht
  · cases ht; exact memoryOk_of_space (space_of_kept (kept_raiseOpcdec s b))
  · cases ht; exact memoryOk_of_space (space_of_kept (kept_raiseIaMatch s))
  · cases ht; exact memoryOk_of_space (space_of_kept (kept_raiseFen s))
  · exact h t ht

/-- An instruction that does not touch memory. -/
theorem keeps_same {ill : Option Bool} {p : Pipe} {t : State} (h : t.space = s.space) :
    KeepsMemory s (s.atDecode ill p (.next t)) := keeps_atDecode (keeps_next (memoryOk_of_space h))

theorem keeps_execNull : KeepsMemory s s.execNull := keeps_same (space_advance s)

theorem keeps_orNull {p : Prop} [Decidable p] {r : Result} (h : KeepsMemory s r) :
    KeepsMemory s (if p then s.execNull else r) := by
  split
  · exact keeps_execNull
  · exact h

theorem keeps_andThen {c : Checked} {run : PAddr → State → State} (hc : c.KeepsSpace s)
    (h : ∀ pa t, c = .ok pa t → t.memoryOk → (run pa t).memoryOk) : KeepsMemory s (c.andThen run) := by
  intro t ht hs
  obtain ⟨pa, u, rfl, rfl⟩ | rfl := andThen_next ht
  · exact h pa u rfl (memoryOk_of_space hc hs)
  · exact memoryOk_of_space hc hs

theorem keeps_execLoad {q : MemReq} {n : Nat} {use : State → Vec → State} (h : ∀ t v, (use t v).space = t.space) :
    KeepsMemory s (s.execLoad q n use) :=
  keeps_andThen (keepsSpace_check s q) fun pa _ _ ht => memoryOk_of_space (h _ _) (memoryOk_loadPhys ht pa n _)

theorem keeps_execStore {u : State} {q : MemReq} {n : Nat} {v : Vec} (hu : u.space = s.space) :
    KeepsMemory s (u.execStore q n v) :=
  keeps_andThen ((keepsSpace_check u q).of_space hu) fun pa _ _ ht => memoryOk_storePhys ht pa n v _

/-! ### Loads and stores -/

theorem keeps_execIntLoad {ra : Reg} {q : MemReq} {n : Nat} {ext : Word → Word} :
    KeepsMemory s (s.execIntLoad ra q n ext) :=
  keeps_orNull (keeps_atDecode (keeps_execLoad fun t _ => space_writeReg t ra _))

theorem keeps_execFloatLoad {fa : Reg} {q : MemReq} {n : Nat} {k : DataKind} {conv : Word → Word} :
    KeepsMemory s (s.execFloatLoad fa q n k conv) :=
  keeps_orNull (keeps_atDecode (keeps_execLoad fun t _ => space_writeF t fa _ k))

theorem keeps_execVecLoad {fa : Reg} {q : MemReq} {n : Nat} {k : DataKind} {conv : Vec → Vec} :
    KeepsMemory s (s.execVecLoad fa q n k conv) :=
  keeps_orNull (keeps_atDecode (keeps_execLoad fun t _ => space_writeV t fa _ k))

theorem keeps_execPriLoad {ra : Reg} {q : MemReq} {n : Nat} : KeepsMemory s (s.execPriLoad ra q n) := by
  refine keeps_atDecode ?_
  split
  · exact keeps_next (memoryOk_of_space rfl)
  · exact keeps_execLoad fun t _ => space_writeReg t ra _

theorem keeps_execIntStore {va : Word} {n : Nat} {cls : MemClass} {v : Word} :
    KeepsMemory s (s.execIntStore va n cls v) := keeps_atDecode (keeps_execStore rfl)

theorem keeps_execStlU {ra rb : Reg} {disp : BitVec 16} : KeepsMemory s (execStlU ra rb disp s) := by
  unfold execStlU
  exact keeps_atDecode (keeps_execStore rfl)

theorem keeps_execPriStore {q : MemReq} {n : Nat} {v : Word} : KeepsMemory s (s.execPriStore q n v) :=
  keeps_atDecode (keeps_execStore rfl)

theorem keeps_execFloatStore {fa : Reg} {va : Word} {n : Nat} {cls : MemClass} {k : DataKind} {conv : Word → Word} :
    KeepsMemory s (s.execFloatStore fa va n cls k conv) := by
  unfold State.execFloatStore
  exact keeps_atDecode (keeps_execStore (space_useF s fa k))

theorem keeps_execVecStore {fa : Reg} {q : MemReq} {n : Nat} {k : DataKind} {conv : Vec → Vec} :
    KeepsMemory s (s.execVecStore fa q n k conv) := by
  unfold State.execVecStore
  exact keeps_atDecode (keeps_execStore (space_useV s fa k))

theorem keeps_execStoreLow {fa : Reg} {va : Word} {b align : Nat} {k : DataKind} {conv : Vec → Vec} :
    KeepsMemory s (s.execStoreLow fa va b align k conv) := by
  unfold State.execStoreLow
  exact keeps_execVecStore

theorem keeps_execStoreHigh {fa : Reg} {va : Word} {b align : Nat} {k : DataKind} {conv : Vec → Vec} :
    KeepsMemory s (s.execStoreHigh fa va b align k conv) := by
  unfold State.execStoreHigh
  exact keeps_execVecStore

/-! ### Cache control -/

theorem keeps_execLineAt {q : MemReq} {f : LineRule} {pa : PAddr} : KeepsMemory s (s.execLineAt q f pa) := by
  unfold State.execLineAt
  split
  · exact keeps_next (memoryOk_of_space rfl)
  · split
    · exact keeps_next (memoryOk_of_space (space_of_kept (matchCheck_kept ‹_›)))
    · split
      · exact keeps_next (memoryOk_of_space (space_of_kept (kept_raiseDataPhys _ _ _ _ _)))
      · refine keeps_andThen ?_ fun p t _ ht => memoryOk_lineEffect ht f p
        split
        · exact keepsSpace_evictAnswer s q pa
        · rfl

theorem keeps_execLine {rb : Reg} {d : BitVec 16} {ill : Option Bool} {f : LineRule} :
    KeepsMemory s (s.execLine rb d ill f) := by
  have hk := keepsSpace_translate s (s.lineReq rb d)
  refine keeps_atDecode ?_
  split
  · exact keeps_next (memoryOk_of_space (space_of_kept (addressCheck_kept ‹_›)))
  · split
    · rename_i ht
      rw [ht] at hk
      exact fun u hu hs => keeps_execLineAt u hu (memoryOk_of_space hk hs)
    · rename_i ht
      rw [ht] at hk
      refine keeps_next (memoryOk_of_space ?_)
      split
      · exact hk
      · rfl
    · exact keeps_fault _

theorem keeps_execFetchd {rb : Reg} {d : BitVec 16} : KeepsMemory s (execFetchd rb d s) := keeps_execLine

theorem keeps_execFetchdE {rb : Reg} {d : BitVec 16} : KeepsMemory s (execFetchdE rb d s) := keeps_execLine

/-! ### Atomics and locks -/

theorem keeps_fetchAndOp {q : MemReq} {pc : Word} {ra : Reg} {op : AtomicOp} {inco : Bool} (hc : q.cls = .atomic)
    (hr : q.reads = true) :
    KeepsMemory s ((s.check q).andThen fun pa t => t.fetchAndOp pc ra pa q.size op inco) := by
  intro t ht hs
  refine keeps_andThen (keepsSpace_check s q) (fun pa u hu hok => ?_) t ht hs
  exact memoryOk_fetchAndOp hok (memExists_le hs (memExists_of_check hc hr hu)) pc ra op inco

theorem keeps_execAtomic {ra : Reg} {va : Word} {n : Nat} {op : AtomicOp} :
    KeepsMemory s (s.execAtomic ra va n op) :=
  keeps_atDecode (keeps_fetchAndOp (q := s.atomicReq va n) rfl rfl)

theorem keeps_execPriAtomic {ra rb : Reg} {d : BitVec 12} {n : Nat} {op : AtomicOp} :
    KeepsMemory s (s.execPriAtomic ra rb d n op) :=
  keeps_atDecode (keeps_fetchAndOp (q := (s.atomicReq (s.priAddr rb d n) n).physical) rfl rfl)

theorem keeps_execLockLoad {ra : Reg} {va : Word} {n : Nat} : KeepsMemory s (s.execLockLoad ra va n) :=
  keeps_atDecode (keeps_andThen (keepsSpace_check s _) fun pa _ _ ht =>
    memoryOk_of_space (by simp only [space_advance, space_setLock, space_writeReg]) (memoryOk_loadPhys ht pa n false))

theorem keeps_lockStoreAt {va : Word} {pa : PAddr} {n : Nat} {v : Word} {ok : Bool} :
    KeepsMemory s (s.lockStoreAt va pa n v ok) := by
  refine keeps_andThen (keepsSpace_accessCheck s _ pa) fun p t _ ht => ?_
  have hv : (if ok then t.storePhys p n (v.setWidth 256) false else t).memoryOk := by
    split
    · exact memoryOk_storePhys ht p n _ false
    · exact ht
  exact hv

theorem keeps_execLockStore {ra : Reg} {va : Word} {n : Nat} : KeepsMemory s (s.execLockStore ra va n) := by
  have hk := keepsSpace_translate s (s.lockReq va n true .free)
  refine keeps_atDecode ?_
  split
  · exact keeps_next (memoryOk_of_space (space_of_kept (addressCheck_kept ‹_›)))
  · split
    · rename_i ht
      rw [ht] at hk
      exact fun u hu hs => keeps_lockStoreAt u hu (memoryOk_of_space (s := s) hk hs)
    · rename_i ht
      rw [ht] at hk
      exact keeps_next (memoryOk_of_space hk)
    · exact keeps_fault _

/-! ### Instructions that reach no memory -/

theorem keeps_execOperate {rc : Reg} {v : Word} {trap : Bool} : KeepsMemory s (s.execOperate rc v trap) :=
  keeps_orNull (keeps_same (by split <;> simp))

theorem keeps_execJump {ra rb : Reg} : KeepsMemory s (s.execJump ra rb) := by
  unfold State.execJump
  refine keeps_same ?_
  split
  · exact space_raiseBadIva s _
  · exact space_atTarget s _ fun u => space_writeReg u ra _

theorem keeps_execLinkBranch {ra : Reg} {d : BitVec 21} : KeepsMemory s (s.execLinkBranch ra d) := by
  unfold State.execLinkBranch
  exact keeps_same (space_atTarget s _ fun u => space_writeReg u ra _)

theorem keeps_execCondBranch {taken : Bool} {d : BitVec 21} : KeepsMemory s (s.execCondBranch taken d) := by
  unfold State.execCondBranch
  refine keeps_same ?_
  split
  · exact space_atTarget s _ fun u => space_transferTo u _
  · exact space_fallThrough s

theorem keeps_execFpBranch {fa : Reg} {taken : Word → Bool} {d : BitVec 21} :
    KeepsMemory s (s.execFpBranch fa taken d) := by
  unfold State.execFpBranch
  refine keeps_same ?_
  split <;> exact space_useF s fa _

theorem keeps_execToF {fc : Reg} {v : Word} {k : DataKind} : KeepsMemory s (s.execToF fc v k) :=
  keeps_orNull (keeps_same (by simp))

theorem keeps_execToV {fc : Reg} {v : Vec} {k : DataKind} : KeepsMemory s (s.execToV fc v k) :=
  keeps_orNull (keeps_same (by simp))

theorem keeps_execFToR {fa rc : Reg} {k : DataKind} {conv : Word → Word} :
    KeepsMemory s (s.execFToR fa rc k conv) := keeps_orNull (keeps_same (by simp))

theorem keeps_execFimovs {fa rc : Reg} : KeepsMemory s (execFimovs fa rc s) := keeps_execFToR

theorem keeps_execFimovd {fa rc : Reg} : KeepsMemory s (execFimovd fa rc s) := keeps_execFToR

theorem keeps_execVinsw {fa fb : Reg} {idx : BitVec 3} {fc : Reg} : KeepsMemory s (execVinsw fa fb idx fc s) := by
  unfold execVinsw
  exact keeps_orNull (keeps_same (by simp))

theorem keeps_execVextw {fa : Reg} {idx : BitVec 3} {fc : Reg} : KeepsMemory s (execVextw fa idx fc s) := by
  unfold execVextw
  exact keeps_orNull (keeps_same (by simp))

theorem keeps_execFaddd {fa fb fc : Reg} : KeepsMemory s (execFaddd fa fb fc s) := by
  unfold execFaddd
  exact keeps_orNull (keeps_same (by simp))

theorem keeps_execVaddd {fa fb fc : Reg} : KeepsMemory s (execVaddd fa fb fc s) := by
  unfold execVaddd
  exact keeps_orNull (keeps_same (by simp))

theorem keeps_execWfpcr {fa : Reg} : KeepsMemory s (execWfpcr fa s) := by
  unfold execWfpcr
  exact keeps_same (space_useF s fa .integer)

theorem keeps_execSetfpec {n : BitVec 2} : KeepsMemory s (s.execSetfpec n) := keeps_same (by rfl)

theorem keeps_execMemb : KeepsMemory s (execMemb s) := keeps_same (by rfl)

theorem keeps_execImemb : KeepsMemory s (execImemb s) := keeps_same (by rfl)

theorem keeps_execWrF {ra : Reg} : KeepsMemory s (execWrF ra s) := by
  unfold execWrF
  exact keeps_same (by rfl)

theorem keeps_execRead {ra : Reg} {v : Word} : KeepsMemory s (s.execRead ra v) := keeps_same (space_writeReg s ra v)

theorem keeps_execSys {fn : BitVec 25} {t : State} (h : t.space = s.space) : KeepsMemory s (s.execSys fn t) := by
  refine keeps_same ?_
  split
  · rfl
  · exact h

theorem keeps_execPriWcsr {ra : Reg} {idx : BitVec 8} : KeepsMemory s (execPriWcsr ra idx s) := by
  refine keeps_atDecode fun t ht => ?_
  obtain ⟨-, -, -, -, hm, -, hp, -⟩ := csrWrite_frame ht
  exact memoryOk_of_space (Prod.ext hp hm)

theorem keeps_execHalt : KeepsMemory s (execHalt s) := keeps_same (by split <;> rfl)

end

/-! ## Every instruction -/

/-- Every instruction keeps memory canonical and inside memory space. -/
theorem exec_keepsMemory (i : Instr) (s : State) : KeepsMemory s (exec i s) := by
  cases i with
  | addw | addwL | subw | subwL | addl | addlL | subl | sublL | mulw | mulwL | mull | mullL | umulh | umulhL
  | cmpeq | cmpeqL | cmplt | cmpltL | cmple | cmpleL | cmpult | cmpultL | cmpule | cmpuleL | and | andL | bic | bicL
  | bis | bisL | ornot | ornotL | xor | xorL | eqv | eqvL | ldi | ldih => exact keeps_execOperate
  | ldbu | ldhu | ldw | ldl | ldlU | ldwNc | ldlNc => exact keeps_execIntLoad
  | flds | fldd | lddNc => exact keeps_execFloatLoad
  | ldwe | ldse | ldde | vlds | vldd | vldwU | vldsU | vlddU | vlddNc => exact keeps_execVecLoad
  | priLdwP | priLdlP | priLdwV | priLdlV | priLdwVpte | priLdlVpte => exact keeps_execPriLoad
  | stb | sth | stw | stl | stwNc | stlNc => exact keeps_execIntStore
  | stlU => exact keeps_execStlU
  | priStwP | priStlP | priStwV | priStlV => exact keeps_execPriStore
  | fsts | fstd | stdNc => exact keeps_execFloatStore
  | vsts | vstd | vstwU | vstsU | vstdU | vstdNc => exact keeps_execVecStore
  | vstwUl | vstsUl | vstdUl => exact keeps_execStoreLow
  | vstwUh | vstsUh | vstdUh => exact keeps_execStoreHigh
  | fetchd => exact keeps_execFetchd
  | fetchdE => exact keeps_execFetchdE
  | flushd | evictdl | evictdg => exact keeps_execLine
  | ldwInc | ldlInc | ldwDec | ldlDec | ldwSet | ldlSet => exact keeps_execAtomic
  | priLdwIncP | priLdlIncP | priLdwDecP | priLdlDecP | priLdwSetP | priLdlSetP => exact keeps_execPriAtomic
  | lldw | lldl => exact keeps_execLockLoad
  | lstw | lstl => exact keeps_execLockStore
  | call | ret | jmp => exact keeps_execJump
  | br | bsr => exact keeps_execLinkBranch
  | beq | bne | blt | ble | bgt | bge | blbc | blbs => exact keeps_execCondBranch
  | fbeq | fbne | fblt | fble | fbgt | fbge => exact keeps_execFpBranch
  | ifmovs | ifmovd | rfpcr => exact keeps_execToF
  | vinsf | vcpyf => exact keeps_execToV
  | fimovs => exact keeps_execFimovs
  | fimovd => exact keeps_execFimovd
  | vinsw => exact keeps_execVinsw
  | vextf fa idx fc => exact keeps_orNull (keeps_same (space_writeF s fc _ _))
  | vextw => exact keeps_execVextw
  | faddd => exact keeps_execFaddd
  | vaddd => exact keeps_execVaddd
  | wfpcr => exact keeps_execWfpcr
  | setfpec0 | setfpec1 | setfpec2 | setfpec3 => exact keeps_execSetfpec
  | memb => exact keeps_execMemb
  | imemb => exact keeps_execImemb
  | priRet | priRetB => exact keeps_same (by rfl)
  | wrF => exact keeps_execWrF
  | nop => exact keeps_execNull
  | rtc | rcid | rtid => exact keeps_execRead
  | rdF ra => exact keeps_orNull (keeps_same (space_writeReg s ra _))
  | halt => exact keeps_execHalt
  | sysCall => exact keeps_execSys rfl
  | sysCallB fn => exact keeps_execSys (space_enterSysCallB s fn)
  | priRcsr ra idx => exact keeps_same ((space_writeReg _ ra _).trans (space_csrRead s _))
  | priWcsr => exact keeps_execPriWcsr

end Sys2Proof.Machine
end

section
/-! That every step keeps memory canonical and inside memory space: instructions, events of the environment, resets, and
stores that take effect early. -/

namespace Sys2Proof.Machine

/-! ## An instruction boundary -/

theorem space_runSubstitute (s : State) : (runSubstitute s).space = s.space := by
  have hsub : s.enterSubstitute.space = s.space := by
    unfold State.enterSubstitute
    dsimp only
    split <;> exact space_enterSysCallB s 0xBB
  have hrun : (if s.iaMatch then s.raiseIaMatch else s.enterSubstitute).space = s.space := by
    split
    · rfl
    · exact hsub
  exact (space_of_keptByTime ((keptByTime_clockTick _).trans (keptByTime_countEvents _ _ _ _))).trans hrun

theorem memoryOk_boundary {s t : State} (h : boundary s = .next t) (hs : s.memoryOk) : t.memoryOk := by
  obtain hk | ⟨u, hu, rfl⟩ | ⟨i, u, v, hu, hv, rfl⟩ := boundary_next h
  · exact memoryOk_of_space (space_of_keptByTime hk) hs
  · exact memoryOk_of_space ((space_runSubstitute u).trans (space_of_kept hu)) hs
  · have hok : v.memoryOk := exec_keepsMemory i u v hv (memoryOk_of_space (space_of_kept hu) hs)
    exact memoryOk_of_space (space_of_keptByTime (keptByTime_finish i u v)) hok

/-! ## Events -/

section
variable {s : State}

theorem memoryOk_lineLeaves (hs : s.memoryOk) (l : Nat) : (s.lineLeaves l).memoryOk :=
  memoryOk_of_withoutMemory (withoutMemory_lineLeaves s l) (lineLeaves_wf l) hs

theorem memoryOk_damageLine (hs : s.memoryOk) (l : Nat) : (s.damageLine l).memoryOk :=
  memoryOk_of_withoutMemory (withoutMemory_damage s _ _) (damage_wf _ _) hs

theorem agentStore_plat (s : State) (a : BitVec 46) (b : Byte) : (s.agentStore a b).plat = s.plat := by
  have h : ((s.lineLeaves (a.toNat / 128)).putDrawn a.toNat 1 (b.setWidth 256)).withoutMemory = s.withoutMemory :=
    (withoutMemory_putDrawn _ _ _ _).trans (withoutMemory_lineLeaves s _)
  exact (congrArg State.plat h :)

theorem memoryOk_agentStore (hs : s.memoryOk) (a : BitVec 46) (b : Byte) : (s.agentStore a b).memoryOk :=
  ⟨agentStore_plat s a b ▸ hs.1, agentStore_wf a b hs.2⟩

theorem memoryOk_agentWrites (hs : s.memoryOk) (a : BitVec 46) (b : Byte) : (s.agentWrites a b).memoryOk := by
  unfold State.agentWrites
  split
  · exact hs
  · split
    · exact memoryOk_agentStore hs a b
    · exact memoryOk_agentStore (s := s.dropDataCache) hs a b

theorem space_externalRequest (s : State) (n : Nat) : (s.externalRequest n).space = s.space := by
  unfold State.externalRequest
  split
  · split <;> rfl
  · rfl

theorem space_mailArrives (s : State) (src : BitVec 4) (m : Word) : (s.mailArrives src m).space = s.space := by
  unfold State.mailArrives
  split <;> rfl

theorem space_intReqSent (s : State) : s.intReqSent.space = s.space := by
  unfold State.intReqSent
  split <;> rfl

theorem space_scError (s : State) (i : Nat) : (s.scError i).space = s.space := space_of_kept (kept_scError s i)

theorem space_icParityError (s : State) (i : Nat) (x : BitVec 6) : (s.icParityError i x).space = s.space :=
  space_of_kept (kept_countCorrected _)

theorem space_icCopyError (s : State) (i : BitVec 6) : (s.icCopyError i).space = s.space := by
  unfold State.icCopyError
  split
  · exact space_of_kept (kept_countCorrected _)
  · rfl

theorem space_cellError (s : State) (e : CellError) (b : Bool) : (s.cellError e b).space = s.space := by
  unfold State.cellError
  dsimp only
  split <;> rfl

/-- A detected error damages at most a line. -/
theorem memoryOk_detect (hs : s.memoryOk) (e : HwError) : (s.detect e).memoryOk := by
  cases e with
  | icTagParity i => exact memoryOk_of_space (space_icParityError s 3 i) hs
  | icDataParity i => exact memoryOk_of_space (space_icParityError s 4 i) hs
  | icCopyParity i => exact memoryOk_of_space (space_icCopyError s i) hs
  | dcDataError c b => exact memoryOk_of_space (space_cellError s c b) hs
  | fetchMemError l | dataMemError l =>
    have hd := memoryOk_damageLine hs l
    simp only [State.detect]
    generalize s.damageLine l = u at hd
    exact hd
  | probeError =>
    refine memoryOk_of_space ?_ hs
    simp only [State.detect]
    split <;> rfl
  | scError b l =>
    simp only [State.detect]
    split
    · exact memoryOk_of_space (space_scError _ _) (memoryOk_damageLine hs l)
    · exact memoryOk_of_space (space_scError s _) hs
  | robError | csrIssueError | fetchAckError | dcTagParity | ioMemError | dataAckError | loadReplay => exact hs

/-! ## Resets -/

/-- The bytes lost with the caches hold free values. -/
theorem memoryOk_loseCaches (hs : s.memoryOk) : s.loseCaches.memoryOk := ⟨hs.1, loseBytes_wf _ _ hs.2⟩

/-- The initial program is written inside memory. -/
theorem memoryOk_platformReset (hs : s.memoryOk) : s.platformReset.memoryOk :=
  ⟨hs.1, writeCells_wf _ (Nat.min_le_right _ _) hs.2⟩

theorem loseRegisters_space (s : State) : s.loseRegisters.space = s.space := by
  simp only [State.loseRegisters, State.space]

theorem wake_space (s : State) : s.wake.space = s.loseRegisters.loseCaches.space := by
  unfold State.wake
  generalize s.loseRegisters.loseCaches = u
  rfl

theorem cold_space (s : State) : s.cold.space = s.loseRegisters.loseCaches.platformReset.space := by
  unfold State.cold
  generalize s.loseRegisters.loseCaches = u
  rfl

theorem powerOn_mem (s : State) :
    s.powerOn.mem = writeCells [] (min s.plat.memSize (2 ^ 46)) s.plat.initProgram := by
  unfold State.powerOn
  rfl

theorem powerOn_plat (s : State) : s.powerOn.plat = s.cold.plat := by
  unfold State.powerOn
  generalize s.cold = u
  rfl

theorem memoryOk_lost (hs : s.memoryOk) : s.loseRegisters.loseCaches.memoryOk :=
  memoryOk_loseCaches (memoryOk_of_space (loseRegisters_space s) hs)

theorem memoryOk_wake (hs : s.memoryOk) : s.wake.memoryOk := memoryOk_of_space (wake_space s) (memoryOk_lost hs)

theorem memoryOk_cold (hs : s.memoryOk) : s.cold.memoryOk :=
  memoryOk_of_space (cold_space s) (memoryOk_platformReset (memoryOk_lost hs))

theorem memoryOk_powerOn (hs : s.memoryOk) : s.powerOn.memoryOk := by
  rw [State.memoryOk, powerOn_plat, powerOn_mem]
  exact ⟨(memoryOk_cold hs).1, writeCells_wf _ (Nat.min_le_right _ _) reset_mem_wf⟩

/-- What an event does in one case, and nothing otherwise. -/
theorem memoryOk_ite {p : Prop} [Decidable p] {t u : State} (ht : t.memoryOk) (hu : u.memoryOk) :
    (if p then t else u).memoryOk := by
  split
  · exact ht
  · exact hu

theorem memoryOk_apply (hs : s.memoryOk) (e : EnvEvent) : (s.apply e).memoryOk := by
  cases e with
  | external n => exact memoryOk_ite (memoryOk_of_space (space_externalRequest s n) hs) hs
  | interCore0 | interCore1 | mailRequest | sleepInterrupt | sleepEnter => exact memoryOk_ite hs hs
  | mailStored src m => exact memoryOk_of_space (space_mailArrives s src m) hs
  | intReqSent => exact memoryOk_of_space (space_intReqSent s) hs
  | agentWrite a b => exact memoryOk_agentWrites hs a b
  | lineReplaced l => exact memoryOk_ite (memoryOk_lineLeaves hs l) hs
  | coreConnection | iorSet | earlyStore => exact hs
  | hwError h =>
    cases h with
    | loadReplay => exact memoryOk_ite (memoryOk_of_space (space_scError _ 2) hs) hs
    | _ => exact memoryOk_ite (memoryOk_detect hs _) hs
  | wakeUp => exact memoryOk_ite (memoryOk_wake hs) hs
  | coldReset => exact memoryOk_cold hs
  | powerOnReset => exact memoryOk_powerOn hs

theorem memoryOk_foretell (hs : s.memoryOk) (p : EarlyStore) : (s.foretell p).memoryOk :=
  memoryOk_of_withoutMemory (withoutMemory_foretell s p) (foretell_wf p hs.1) hs

end

/-! ## The step -/

/-- Settles O53: each of the four things a step can be keeps memory canonical and inside memory space. -/
theorem stepKeepsMemory : Obligations.StepKeepsMemory := by
  intro s t hs h
  obtain ⟨p, rest, -, rfl⟩ | ⟨e, rest, -, rfl⟩ | ⟨-, rfl⟩ | h := step_next h
  · exact memoryOk_foretell (s := { s with inputs := rest }) hs p
  · exact memoryOk_apply (s := { s with inputs := rest }) hs e
  · exact hs
  · exact memoryOk_boundary h hs

end Sys2Proof.Machine
end

section
/-! What the privileged state is to an instruction: none but PRI_WCSR changes any of it. -/

namespace Sys2Proof.Machine

/-! ## The privileged state -/

theorem privilegedView_of_kept {s t : State} (h : t.kept = s.kept) : t.privilegedView = s.privilegedView := by
  simp only [State.kept, State.keptByTime, Prod.mk.injEq] at h
  simp only [State.privilegedView, h]

/-- Memory operations and error records change none of it. -/
theorem privilegedView_of_withoutMemory {s t : State} (h : t.withoutMemory = s.withoutMemory) :
    t.privilegedView = s.privilegedView :=
  show t.withoutMemory.privilegedView = s.withoutMemory.privilegedView from congrArg State.privilegedView h

section
variable (s : State)

@[simp] theorem privilegedView_advance : s.advance.privilegedView = s.privilegedView := rfl
@[simp] theorem privilegedView_drawn : s.drawn.privilegedView = s.privilegedView := rfl
@[simp] theorem privilegedView_transferTo (a : Word) : (s.transferTo a).privilegedView = s.privilegedView := rfl
@[simp] theorem privilegedView_fallThrough : s.fallThrough.privilegedView = s.privilegedView := rfl
@[simp] theorem privilegedView_orFpcr (b : Word) : (s.orFpcr b).privilegedView = s.privilegedView := rfl
@[simp] theorem privilegedView_setLock (pa : PAddr) (n : Nat) :
    (s.setLock pa n).privilegedView = s.privilegedView := rfl
@[simp] theorem privilegedView_endLock (b : Bool) : (s.endLock b).privilegedView = s.privilegedView := rfl

@[simp] theorem privilegedView_raiseArith (p b : Word) (r : BitVec 5) :
    (s.raiseArith p b r).privilegedView = s.privilegedView := privilegedView_of_kept (kept_raiseArith s p b r)

@[simp] theorem privilegedView_writeReg (r : Reg) (v : Word) :
    (s.writeReg r v).privilegedView = s.privilegedView := by
  simp [State.privilegedView]

@[simp] theorem privilegedView_writeV (r : Reg) (v : Vec) (k : DataKind) :
    (s.writeV r v k).privilegedView = s.privilegedView := by
  simp [State.privilegedView]

@[simp] theorem privilegedView_writeF (r : Reg) (v : Word) (k : DataKind) :
    (s.writeF r v k).privilegedView = s.privilegedView := by
  simp [State.privilegedView]

@[simp] theorem privilegedView_useF (r : Reg) (k : DataKind) : (s.useF r k).2.privilegedView = s.privilegedView :=
  privilegedView_of_kept (kept_useF s r k)

@[simp] theorem privilegedView_useV (r : Reg) (k : DataKind) : (s.useV r k).2.privilegedView = s.privilegedView :=
  privilegedView_of_kept (kept_useV s r k)

@[simp] theorem privilegedView_loadPhys (pa : PAddr) (n : Nat) (nc : Bool) :
    (s.loadPhys pa n nc).2.privilegedView = s.privilegedView :=
  privilegedView_of_withoutMemory (withoutMemory_loadPhys s pa n nc)

@[simp] theorem privilegedView_storePhys (pa : PAddr) (n : Nat) (v : Vec) (nc : Bool) :
    (s.storePhys pa n v nc).privilegedView = s.privilegedView :=
  privilegedView_of_withoutMemory (withoutMemory_storePhys s pa n v nc)

@[simp] theorem privilegedView_atomicStore (pa : PAddr) (n : Nat) (v : Vec) :
    (s.atomicStore pa n v).privilegedView = s.privilegedView :=
  privilegedView_of_withoutMemory (withoutMemory_atomicStore s pa n v)

@[simp] theorem privilegedView_fetchAndOp (pc : Word) (ra : Reg) (pa : PAddr) (n : Nat) (op : AtomicOp) (inco : Bool) :
    (s.fetchAndOp pc ra pa n op inco).privilegedView = s.privilegedView := by
  unfold State.fetchAndOp
  dsimp only
  split <;> simp

@[simp] theorem privilegedView_finishScalar (fc : Reg) (mixed : Bool) (o : FpOutcome) :
    (s.finishScalar fc mixed o).privilegedView = s.privilegedView := by
  unfold State.finishScalar
  dsimp only
  split <;> simp

@[simp] theorem privilegedView_finishVector (fc : Reg) (mixed : Bool) (o0 o1 o2 o3 : FpOutcome) :
    (s.finishVector fc mixed o0 o1 o2 o3).privilegedView = s.privilegedView := by
  unfold State.finishVector
  dsimp only
  split <;> simp

theorem privilegedView_enterSysCallB (fn : BitVec 25) :
    (s.enterSysCallB fn).privilegedView = s.privilegedView := by
  unfold State.enterSysCallB
  dsimp only
  split <;> rfl

/-- A CSR read draws at most a free value. -/
theorem privilegedView_csrRead (k : Csr) : (s.csrRead k).2.privilegedView = s.privilegedView := by
  unfold State.csrRead
  split
  · rfl
  · split <;> rfl

theorem privilegedView_lineEffect (f : LineRule) (pa : PAddr) :
    (s.lineEffect f pa).privilegedView = s.privilegedView := by
  have hline : (if f.leaves then s.flushLine (loc pa / 128)
      else if f.fills then s.fillLine (loc pa) else s).withoutMemory = s.withoutMemory := by
    simp only [apply_ite State.withoutMemory, withoutMemory_flushLine, withoutMemory_fillLine, ite_self]
  unfold State.lineEffect
  dsimp only
  split <;> exact privilegedView_of_withoutMemory hline

/-- A transfer whose target match is made. -/
theorem privilegedView_atTarget (a : Word) {go : State → State}
    (h : ∀ u, (go u).privilegedView = u.privilegedView) : (s.atTarget a go).privilegedView = s.privilegedView := by
  obtain ⟨u, hu, ha⟩ := atTarget_cases s a go
  have hs : u.privilegedView = s.privilegedView := by obtain rfl | rfl := hu <;> rfl
  obtain ha | ha := ha <;> rw [ha]
  · exact hs
  · exact (h u).trans hs

end

/-! ## The shared shapes -/

/-- No next state of the outcome differs from `s` in its privileged state. -/
def Protects (s : State) (r : Result) : Prop := ∀ t, r = .next t → t.privilegedView = s.privilegedView

section
variable {s u : State}

theorem Protects.of_same {r : Result} (h : Protects u r) (hu : u.privilegedView = s.privilegedView) : Protects s r :=
  fun t ht => (h t ht).trans hu

theorem protects_next {t : State} (h : t.privilegedView = s.privilegedView) : Protects s (.next t) :=
  fun _ ht => by cases ht; exact h

theorem protects_kept {t : State} (h : t.kept = s.kept) : Protects s (.next t) :=
  protects_next (privilegedView_of_kept h)

theorem protects_fault (f : Fault) : Protects s (.fault f) := fun _ ht => by cases ht

theorem protects_atDecode {ill : Option Bool} {p : Pipe} {run : Result} (h : Protects s run) :
    Protects s (s.atDecode ill p run) := by
  obtain ⟨b, -, hd⟩ | ⟨-, -, hd⟩ | ⟨-, -, -, hd⟩ | ⟨-, -, hd⟩ := atDecode_cases s ill p run <;> rw [hd]
  · exact protects_kept (kept_raiseOpcdec s b)
  · exact protects_kept (kept_raiseIaMatch s)
  · exact protects_kept (kept_raiseFen s)
  · exact h

/-- An instruction that reaches no memory. -/
theorem protects_effect {ill : Option Bool} {p : Pipe} {t : State} (h : t.privilegedView = s.privilegedView) :
    Protects s (s.atDecode ill p (.next t)) := protects_atDecode (protects_next h)

/-- An instruction that is null in one case. -/
theorem protects_orNull {c : Prop} [Decidable c] {r : Result} (h : Protects s r) :
    Protects s (if c then s.execNull else r) := by
  split
  · exact protects_effect (privilegedView_advance s)
  · exact h

theorem protects_andThen {c : Checked} {pa : PAddr} {run : PAddr → State → State} (hc : c.Keeps s pa)
    (h : ∀ p t, (run p t).privilegedView = t.privilegedView) : Protects s (c.andThen run) := by
  intro t ht
  obtain ⟨p, v, rfl, rfl⟩ | rfl := andThen_next ht
  · exact (h p v).trans (privilegedView_of_kept hc.2)
  · exact privilegedView_of_kept hc

/-- What an access does once all its checks have passed. -/
theorem protects_check {q : MemReq} {run : PAddr → State → State} (hu : u.privilegedView = s.privilegedView)
    (h : ∀ p t, (run p t).privilegedView = t.privilegedView) : Protects s ((u.check q).andThen run) := by
  refine Protects.of_same ?_ hu
  obtain ⟨pa, t, hc, hk⟩ | ⟨t, hc, hk⟩ | hc := check_cases u q <;> rw [hc]
  · exact protects_next ((h pa t).trans (privilegedView_of_kept hk))
  · exact protects_kept hk
  · exact protects_fault _

theorem protects_execLoad {q : MemReq} {n : Nat} {use : State → Vec → State}
    (h : ∀ t v, (use t v).privilegedView = t.privilegedView) : Protects s (s.execLoad q n use) :=
  protects_check rfl fun pa t => (h _ _).trans (privilegedView_loadPhys t pa n _)

theorem protects_execStore {q : MemReq} {n : Nat} {v : Vec} (hu : u.privilegedView = s.privilegedView) :
    Protects s (u.execStore q n v) := protects_check hu fun pa t => privilegedView_storePhys t pa n v _

/-! ### Instructions that reach memory -/

theorem protects_execIntLoad {ra : Reg} {q : MemReq} {n : Nat} {ext : Word → Word} :
    Protects s (s.execIntLoad ra q n ext) :=
  protects_orNull (protects_atDecode (protects_execLoad fun t _ => privilegedView_writeReg t ra _))

theorem protects_execFloatLoad {fa : Reg} {q : MemReq} {n : Nat} {k : DataKind} {conv : Word → Word} :
    Protects s (s.execFloatLoad fa q n k conv) :=
  protects_orNull (protects_atDecode (protects_execLoad fun t _ => privilegedView_writeF t fa _ k))

theorem protects_execVecLoad {fa : Reg} {q : MemReq} {n : Nat} {k : DataKind} {conv : Vec → Vec} :
    Protects s (s.execVecLoad fa q n k conv) :=
  protects_orNull (protects_atDecode (protects_execLoad fun t _ => privilegedView_writeV t fa _ k))

theorem protects_execPriLoad {ra : Reg} {q : MemReq} {n : Nat} : Protects s (s.execPriLoad ra q n) := by
  refine protects_atDecode ?_
  split
  · exact protects_next (privilegedView_advance s)
  · exact protects_execLoad fun t _ => privilegedView_writeReg t ra _

theorem protects_execIntStore {va : Word} {n : Nat} {cls : MemClass} {v : Word} :
    Protects s (s.execIntStore va n cls v) := protects_atDecode (protects_execStore rfl)

theorem protects_execStlU {ra rb : Reg} {disp : BitVec 16} : Protects s (execStlU ra rb disp s) := by
  unfold execStlU
  exact protects_atDecode (protects_execStore rfl)

theorem protects_execPriStore {q : MemReq} {n : Nat} {v : Word} : Protects s (s.execPriStore q n v) :=
  protects_atDecode (protects_execStore rfl)

theorem protects_execFloatStore {fa : Reg} {va : Word} {n : Nat} {cls : MemClass} {k : DataKind}
    {conv : Word → Word} : Protects s (s.execFloatStore fa va n cls k conv) := by
  unfold State.execFloatStore
  exact protects_atDecode (protects_execStore (privilegedView_useF s fa k))

theorem protects_execVecStore {fa : Reg} {q : MemReq} {n : Nat} {k : DataKind} {conv : Vec → Vec} :
    Protects s (s.execVecStore fa q n k conv) := by
  unfold State.execVecStore
  exact protects_atDecode (protects_execStore (privilegedView_useV s fa k))

theorem protects_execStoreLow {fa : Reg} {va : Word} {b align : Nat} {k : DataKind} {conv : Vec → Vec} :
    Protects s (s.execStoreLow fa va b align k conv) := by
  unfold State.execStoreLow
  exact protects_execVecStore

theorem protects_execStoreHigh {fa : Reg} {va : Word} {b align : Nat} {k : DataKind} {conv : Vec → Vec} :
    Protects s (s.execStoreHigh fa va b align k conv) := by
  unfold State.execStoreHigh
  exact protects_execVecStore

theorem protects_execAtomic {ra : Reg} {va : Word} {n : Nat} {op : AtomicOp} :
    Protects s (s.execAtomic ra va n op) :=
  protects_atDecode (protects_check rfl fun pa t => privilegedView_fetchAndOp t _ ra pa n op _)

theorem protects_execPriAtomic {ra rb : Reg} {d : BitVec 12} {n : Nat} {op : AtomicOp} :
    Protects s (s.execPriAtomic ra rb d n op) :=
  protects_atDecode (protects_check rfl fun pa t => privilegedView_fetchAndOp t _ ra pa n op _)

theorem protects_execLockLoad {ra : Reg} {va : Word} {n : Nat} : Protects s (s.execLockLoad ra va n) :=
  protects_atDecode (protects_check rfl fun pa t => by simp)

theorem protects_lockStoreAt {va : Word} {pa : PAddr} {n : Nat} {v : Word} {ok : Bool} :
    Protects s (s.lockStoreAt va pa n v ok) := by
  have hrun (p : PAddr) (t : State) :
      (((if ok then t.storePhys p n (v.setWidth 256) false else t).endLock ok).advance).privilegedView
        = t.privilegedView := by
    split <;> simp
  unfold State.lockStoreAt
  obtain ⟨t, hc, hk⟩ | ⟨t, hc, hk⟩ :=
    accessCheck_cases s (s.lockReq va n true (if ok then .bytes n v else .free)) pa <;> rw [hc]
  · exact protects_next ((hrun _ t).trans (privilegedView_of_kept hk))
  · exact protects_kept hk

/-- The checks of an access one by one: its address, its translation, and what `go` does with a physical address. -/
theorem protects_translated {q : MemReq} {go : PAddr → State → Result} {stop : State → State}
    (hgo : ∀ pa, Protects s (go pa s)) (hstop : ∀ t, t.kept = s.kept → (stop t).privilegedView = s.privilegedView) :
    Protects s
      (match s.addressCheck q with
      | some t => .next t
      | none =>
        match s.translate q with
        | .ok pa t => go pa t
        | .trap t => .next (stop t)
        | .stuck f => .fault f) := by
  cases ha : s.addressCheck q with
  | some t => exact protects_kept (addressCheck_kept ha)
  | none =>
    obtain ⟨pa, ht⟩ | ⟨t, ht, hk⟩ | ht := translate_cases s q <;> rw [ht]
    · exact hgo pa
    · exact protects_next (hstop t hk)
    · exact protects_fault _

theorem protects_execLockStore {ra : Reg} {va : Word} {n : Nat} : Protects s (s.execLockStore ra va n) :=
  protects_atDecode (protects_translated (stop := id)
    (go := fun pa t => t.drawn.lockStoreAt va pa n (s.readReg ra) (t.lockHolds pa n && t.free.getLsbD 0))
    (fun _ => protects_lockStoreAt.of_same (privilegedView_drawn s)) fun _ => privilegedView_of_kept)

theorem protects_execLineAt {q : MemReq} {f : LineRule} {pa : PAddr} : Protects s (s.execLineAt q f pa) := by
  have answer : ∃ p, (if f.answer then s.evictAnswer q pa else Checked.ok pa s).Keeps s p := by
    unfold State.evictAnswer
    refine ⟨pa, ?_⟩
    split
    · split
      · exact (kept_raiseDataPhys _ _ _ _ _).trans (kept_scError s 14)
      · split
        · exact armedError_keeps s q pa
        · exact ⟨rfl, rfl⟩
    · exact ⟨rfl, rfl⟩
  obtain ⟨p, answer⟩ := answer
  unfold State.execLineAt
  split
  · exact protects_next (privilegedView_advance s)
  · split
    · exact protects_kept (matchCheck_kept ‹_›)
    · split
      · exact protects_kept (kept_raiseDataPhys _ _ _ _ _)
      · exact protects_andThen answer fun p t => privilegedView_lineEffect t f p

theorem protects_execLine {rb : Reg} {d : BitVec 16} {ill : Option Bool} {f : LineRule} :
    Protects s (s.execLine rb d ill f) := by
  refine protects_atDecode (protects_translated (go := fun pa t => t.execLineAt (s.lineReq rb d) f pa)
    (fun _ => protects_execLineAt) fun t hk => ?_)
  split
  · exact privilegedView_of_kept hk
  · exact privilegedView_advance s

theorem protects_execFetchd {rb : Reg} {d : BitVec 16} : Protects s (execFetchd rb d s) := protects_execLine

theorem protects_execFetchdE {rb : Reg} {d : BitVec 16} : Protects s (execFetchdE rb d s) := protects_execLine

/-! ### Instructions that reach none -/

theorem protects_execOperate {rc : Reg} {v : Word} {trap : Bool} : Protects s (s.execOperate rc v trap) :=
  protects_orNull (protects_effect (by split <;> simp))

theorem protects_execJump {ra rb : Reg} : Protects s (s.execJump ra rb) := by
  unfold State.execJump
  refine protects_effect ?_
  split
  · exact privilegedView_of_kept (kept_raiseBadIva s _)
  · exact privilegedView_atTarget s _ fun u => privilegedView_writeReg u ra _

theorem protects_execLinkBranch {ra : Reg} {d : BitVec 21} : Protects s (s.execLinkBranch ra d) := by
  unfold State.execLinkBranch
  exact protects_effect (privilegedView_atTarget s _ fun u => privilegedView_writeReg u ra _)

theorem protects_execCondBranch {taken : Bool} {d : BitVec 21} : Protects s (s.execCondBranch taken d) := by
  unfold State.execCondBranch
  refine protects_effect ?_
  split
  · exact privilegedView_atTarget s _ fun u => privilegedView_transferTo u _
  · exact privilegedView_fallThrough s

theorem protects_execFpBranch {fa : Reg} {taken : Word → Bool} {d : BitVec 21} :
    Protects s (s.execFpBranch fa taken d) := by
  unfold State.execFpBranch
  refine protects_effect ?_
  split <;> exact privilegedView_useF s fa _

/-- An instruction that writes one register, or is null. -/
theorem protects_orNull_effect {c : Prop} [Decidable c] {p : Pipe} {t : State}
    (h : t.privilegedView = s.privilegedView) : Protects s (if c then s.execNull else s.atDecode none p (.next t)) :=
  protects_orNull (protects_effect h)

theorem protects_execToF {fc : Reg} {v : Word} {k : DataKind} : Protects s (s.execToF fc v k) :=
  protects_orNull_effect (privilegedView_writeF s fc v k)

theorem protects_execToV {fc : Reg} {v : Vec} {k : DataKind} : Protects s (s.execToV fc v k) :=
  protects_orNull_effect (privilegedView_writeV s fc v k)

theorem protects_execFToR {fa rc : Reg} {k : DataKind} {conv : Word → Word} :
    Protects s (s.execFToR fa rc k conv) := by
  unfold State.execFToR
  exact protects_orNull_effect ((privilegedView_writeReg _ rc _).trans (privilegedView_useF s fa k))

theorem protects_execFimovs {fa rc : Reg} : Protects s (execFimovs fa rc s) := protects_execFToR

theorem protects_execFimovd {fa rc : Reg} : Protects s (execFimovd fa rc s) := protects_execFToR

theorem protects_execVinsw {fa fb : Reg} {idx : BitVec 3} {fc : Reg} : Protects s (execVinsw fa fb idx fc s) := by
  unfold execVinsw
  exact protects_orNull_effect (by simp)

theorem protects_execVextw {fa : Reg} {idx : BitVec 3} {fc : Reg} : Protects s (execVextw fa idx fc s) := by
  unfold execVextw
  exact protects_orNull_effect (by simp)

theorem protects_execFaddd {fa fb fc : Reg} : Protects s (execFaddd fa fb fc s) := by
  unfold execFaddd
  exact protects_orNull_effect (by simp)

theorem protects_execVaddd {fa fb fc : Reg} : Protects s (execVaddd fa fb fc s) := by
  unfold execVaddd
  exact protects_orNull_effect (by simp)

theorem protects_execWfpcr {fa : Reg} : Protects s (execWfpcr fa s) := by
  unfold execWfpcr
  exact protects_effect (privilegedView_useF s fa .integer)

theorem protects_execSetfpec {n : BitVec 2} : Protects s (s.execSetfpec n) := protects_effect (by rfl)

theorem protects_execMemb : Protects s (execMemb s) := protects_effect (by rfl)

theorem protects_execImemb : Protects s (execImemb s) := protects_effect (by rfl)

theorem protects_execWrF {ra : Reg} : Protects s (execWrF ra s) := by
  unfold execWrF
  exact protects_effect (by rfl)

theorem protects_execNull : Protects s s.execNull := protects_effect (privilegedView_advance s)

theorem protects_execHalt : Protects s (execHalt s) := protects_effect (by split <;> rfl)

theorem protects_execRead {ra : Reg} {v : Word} : Protects s (s.execRead ra v) :=
  protects_effect (privilegedView_writeReg s ra v)

theorem protects_execPriRcsr {ra : Reg} {idx : BitVec 8} : Protects s (execPriRcsr ra idx s) := by
  unfold execPriRcsr
  exact protects_effect ((privilegedView_writeReg _ ra _).trans (privilegedView_csrRead s _))

theorem protects_execSys {fn : BitVec 25} {t : State} (h : t.privilegedView = s.privilegedView) :
    Protects s (s.execSys fn t) := by
  refine protects_effect ?_
  split
  · exact privilegedView_advance s
  · exact h

end

/-! ## Every instruction -/

/-- No instruction but PRI_WCSR changes the privileged state (R380, R389). -/
theorem exec_protects {i : Instr} (hi : ∀ ra idx, i ≠ .priWcsr ra idx) (s : State) : Protects s (exec i s) := by
  cases i with
  | addw | addwL | subw | subwL | addl | addlL | subl | sublL | mulw | mulwL | mull | mullL | umulh | umulhL
  | cmpeq | cmpeqL | cmplt | cmpltL | cmple | cmpleL | cmpult | cmpultL | cmpule | cmpuleL | and | andL | bic | bicL
  | bis | bisL | ornot | ornotL | xor | xorL | eqv | eqvL | ldi | ldih => exact protects_execOperate
  | ldbu | ldhu | ldw | ldl | ldlU | ldwNc | ldlNc => exact protects_execIntLoad
  | flds | fldd | lddNc => exact protects_execFloatLoad
  | ldwe | ldse | ldde | vlds | vldd | vldwU | vldsU | vlddU | vlddNc => exact protects_execVecLoad
  | priLdwP | priLdlP | priLdwV | priLdlV | priLdwVpte | priLdlVpte => exact protects_execPriLoad
  | stb | sth | stw | stl | stwNc | stlNc => exact protects_execIntStore
  | stlU => exact protects_execStlU
  | priStwP | priStlP | priStwV | priStlV => exact protects_execPriStore
  | fsts | fstd | stdNc => exact protects_execFloatStore
  | vsts | vstd | vstwU | vstsU | vstdU | vstdNc => exact protects_execVecStore
  | vstwUl | vstsUl | vstdUl => exact protects_execStoreLow
  | vstwUh | vstsUh | vstdUh => exact protects_execStoreHigh
  | fetchd => exact protects_execFetchd
  | fetchdE => exact protects_execFetchdE
  | flushd | evictdl | evictdg => exact protects_execLine
  | ldwInc | ldlInc | ldwDec | ldlDec | ldwSet | ldlSet => exact protects_execAtomic
  | priLdwIncP | priLdlIncP | priLdwDecP | priLdlDecP | priLdwSetP | priLdlSetP => exact protects_execPriAtomic
  | lldw | lldl => exact protects_execLockLoad
  | lstw | lstl => exact protects_execLockStore
  | call | ret | jmp => exact protects_execJump
  | br | bsr => exact protects_execLinkBranch
  | beq | bne | blt | ble | bgt | bge | blbc | blbs => exact protects_execCondBranch
  | fbeq | fbne | fblt | fble | fbgt | fbge => exact protects_execFpBranch
  | ifmovs | ifmovd | rfpcr => exact protects_execToF
  | vinsf | vcpyf => exact protects_execToV
  | fimovs => exact protects_execFimovs
  | fimovd => exact protects_execFimovd
  | vinsw => exact protects_execVinsw
  | vextf _ _ fc => exact protects_orNull_effect (privilegedView_writeF s fc _ _)
  | vextw => exact protects_execVextw
  | faddd => exact protects_execFaddd
  | vaddd => exact protects_execVaddd
  | wfpcr => exact protects_execWfpcr
  | setfpec0 | setfpec1 | setfpec2 | setfpec3 => exact protects_execSetfpec
  | memb => exact protects_execMemb
  | imemb => exact protects_execImemb
  | priRet | priRetB => exact protects_effect (by rfl)
  | wrF => exact protects_execWrF
  | nop => exact protects_execNull
  | rtc | rcid | rtid => exact protects_execRead
  | rdF ra => exact protects_orNull (protects_effect (privilegedView_writeReg s ra _))
  | halt => exact protects_execHalt
  | sysCall => exact protects_execSys rfl
  | sysCallB fn => exact protects_execSys (privilegedView_enterSysCallB s fn)
  | priRcsr => exact protects_execPriRcsr
  | priWcsr ra idx => exact absurd rfl (hi ra idx)

end Sys2Proof.Machine
end

section
/-! That every step keeps the translation buffers within their sizes and the ITB without overlaps: PRI_WCSR fills them and
takes entries out, a reset empties them, and nothing else touches them. -/

namespace Sys2Proof.Machine

/-! ## The two buffers -/

/-- What `buffersOk` speaks of. -/
def State.buffers (s : State) := (s.itb, s.dtb)

section
variable {s t : State}

/-- A state that has lost entries only is as good. -/
theorem buffersOk_of_sublist (hi : t.itb.Sublist s.itb) (hd : t.dtb.Sublist s.dtb) (hs : s.buffersOk) :
    t.buffersOk := by
  obtain ⟨hil, hip, hdl⟩ := hs
  exact ⟨hi.length_le.trans hil, hip.sublist hi, hd.length_le.trans hdl⟩

theorem buffersOk_of_buffers (h : t.buffers = s.buffers) (hs : s.buffersOk) : t.buffersOk := by
  obtain ⟨hi, hd⟩ := Prod.mk.inj h
  exact buffersOk_of_sublist (hi ▸ List.Sublist.refl _) (hd ▸ List.Sublist.refl _) hs

theorem buffers_of_keptByTime (h : t.keptByTime = s.keptByTime) : t.buffers = s.buffers := by
  simp only [State.keptByTime, Prod.mk.injEq] at h
  simp only [State.buffers, h]

theorem buffers_of_kept (h : t.kept = s.kept) : t.buffers = s.buffers := buffers_of_keptByTime (keptByTime_of_kept h)

theorem buffers_of_privilegedView (h : t.privilegedView = s.privilegedView) : t.buffers = s.buffers := by
  simp only [State.privilegedView, Prod.mk.injEq] at h
  simp only [State.buffers, h]

theorem buffers_of_withoutMemory (h : t.withoutMemory = s.withoutMemory) : t.buffers = s.buffers :=
  buffers_of_privilegedView (privilegedView_of_withoutMemory h)

/-! ## Fills -/

/-- A fill drives out what it overlaps, and one more entry where the ITB stays full (R263, R290). -/
theorem buffersOk_itbFill (d : Word) (hs : s.buffersOk) : (s.itbFill d).buffersOk := by
  obtain ⟨hil, hip, hdl⟩ := hs
  have hkept : (s.itb.filter fun f => !(s.itbNew d).overlaps f).Sublist s.itb := List.filter_sublist
  have happart : ∀ f ∈ s.itb.filter fun f => !(s.itbNew d).overlaps f, (s.itbNew d).overlaps f = false :=
    fun f hf => by simpa using (List.mem_filter.mp hf).2
  have hlen := hkept.length_le
  unfold State.itbFill
  dsimp only
  generalize (s.itb.filter fun f => !(s.itbNew d).overlaps f) = kept at hkept happart hlen
  split
  · exact ⟨by simpa using ‹kept.length < 32›, .cons happart (hip.sublist hkept), hdl⟩
  · have hout := List.eraseIdx_sublist kept (s.free.toNat % 32)
    have hless : (kept.eraseIdx (s.free.toNat % 32)).length = kept.length - 1 :=
      List.length_eraseIdx_of_lt (by omega)
    exact ⟨by simp only [List.length_cons]; omega,
      .cons (fun f hf => happart f (hout.subset hf)) (hip.sublist (hout.trans hkept)), hdl⟩

/-- A fill of a full DTB drives out one entry (R271, R290). -/
theorem buffersOk_dtbFill (d : Word) (hs : s.buffersOk) : (s.dtbFill d).buffersOk := by
  obtain ⟨hil, hip, hdl⟩ := hs
  unfold State.dtbFill
  dsimp only
  split
  · exact ⟨hil, hip, by simp only [List.length_cons]; omega⟩
  · split
    · exact ⟨hil, hip, by simp only [List.length_cons]; omega⟩
    · have hk : (s.free.extractLsb' 1 255).toNat % s.dtb.length < s.dtb.length := Nat.mod_lt _ (by omega)
      exact ⟨hil, hip, by simp only [List.length_cons, List.length_eraseIdx_of_lt hk]; omega⟩

/-- Every CSR write but a fill leaves entries out at most. -/
theorem buffersOk_csrWrite {c : Csr} {d : Word} (h : s.csrWrite c d = .next t) (hs : s.buffersOk) : t.buffersOk := by
  cases c <;> simp only [State.csrWrite] at h
  case itbPte => cases h; exact buffersOk_itbFill d hs
  case dtbPte => cases h; exact buffersOk_dtbFill d hs
  case itbIa => cases h; exact buffersOk_of_sublist (s := s) (List.nil_sublist _) (.refl _) hs
  case dtbIa => cases h; exact buffersOk_of_sublist (s := s) (.refl _) (List.nil_sublist _) hs
  case itbIv | itbIvp | itbIu | itbIs => cases h; exact buffersOk_of_sublist (s := s) List.filter_sublist (.refl _) hs
  case dtbIv | dtbIvp | dtbIu | dtbIs => cases h; exact buffersOk_of_sublist (s := s) (.refl _) List.filter_sublist hs
  case softErr | hardErr => cases h; refine buffersOk_of_buffers ?_ hs; split <;> rfl
  case dcCtl | scCtl => split at h <;> cases h; exact hs
  case intReq =>
    cases h
    refine buffersOk_of_buffers ?_ hs
    unfold State.writeIntReq
    dsimp only
    split
    · split <;> rfl
    · rfl
  all_goals cases h; exact hs

/-! ## Instructions -/

theorem exec_buffersOk {i : Instr} (h : exec i s = .next t) (hs : s.buffersOk) : t.buffersOk := by
  by_cases hi : ∃ ra idx, i = .priWcsr ra idx
  · obtain ⟨ra, idx, rfl⟩ := hi
    obtain ⟨b, -, hd⟩ | ⟨-, -, hd⟩ | ⟨-, -, -, hd⟩ | ⟨-, -, hd⟩ :=
        atDecode_cases s s.privileged .int (s.advance.csrWrite (csrOf idx) (s.readReg ra)) <;>
      rw [show exec (.priWcsr ra idx) s = _ from hd] at h
    · cases h; exact buffersOk_of_buffers (buffers_of_kept (kept_raiseOpcdec s b)) hs
    · cases h; exact buffersOk_of_buffers (buffers_of_kept (kept_raiseIaMatch s)) hs
    · cases h; exact buffersOk_of_buffers (buffers_of_kept (kept_raiseFen s)) hs
    · exact buffersOk_csrWrite (s := s.advance) h hs
  · have hi' : ∀ ra idx, i ≠ .priWcsr ra idx := fun ra idx he => hi ⟨ra, idx, he⟩
    exact buffersOk_of_buffers (buffers_of_privilegedView (exec_protects hi' s t h)) hs

theorem buffers_runSubstitute (s : State) : (runSubstitute s).buffers = s.buffers := by
  have hsub : s.enterSubstitute.privilegedView = s.privilegedView := by
    unfold State.enterSubstitute
    dsimp only
    split <;> exact privilegedView_enterSysCallB s 0xBB
  have hrun : (if s.iaMatch then s.raiseIaMatch else s.enterSubstitute).buffers = s.buffers := by
    split
    · rfl
    · exact buffers_of_privilegedView hsub
  exact (buffers_of_keptByTime ((keptByTime_clockTick _).trans (keptByTime_countEvents _ _ _ _))).trans hrun

theorem buffersOk_boundary (h : boundary s = .next t) (hs : s.buffersOk) : t.buffersOk := by
  obtain hk | ⟨u, hu, rfl⟩ | ⟨i, u, v, hu, hv, rfl⟩ := boundary_next h
  · exact buffersOk_of_buffers (buffers_of_keptByTime hk) hs
  · exact buffersOk_of_buffers ((buffers_runSubstitute u).trans (buffers_of_kept hu)) hs
  · exact buffersOk_of_buffers (buffers_of_keptByTime (keptByTime_finish i u v))
      (exec_buffersOk hv (buffersOk_of_buffers (buffers_of_kept hu) hs))

/-! ## Events -/

theorem buffers_agentWrites (s : State) (a : BitVec 46) (b : Byte) : (s.agentWrites a b).buffers = s.buffers := by
  have stored (u : State) : (u.agentStore a b).buffers = u.buffers := by
    have h : ((u.lineLeaves (a.toNat / 128)).putDrawn a.toNat 1 (b.setWidth 256)).buffers = u.buffers :=
      buffers_of_withoutMemory ((withoutMemory_putDrawn _ _ _ _).trans (withoutMemory_lineLeaves u _))
    exact h
  unfold State.agentWrites
  split
  · rfl
  · split
    · exact stored s
    · exact stored s.dropDataCache

/-- A detected error changes records, memory and what is armed only. -/
theorem buffers_detect (s : State) (e : HwError) : (s.detect e).buffers = s.buffers := by
  cases e with
  | icTagParity | icDataParity => exact buffers_of_kept (kept_countCorrected _)
  | icCopyParity i =>
    simp only [State.detect, State.icCopyError]
    split
    · exact buffers_of_kept (kept_countCorrected _)
    · rfl
  | dcDataError c b =>
    simp only [State.detect, State.cellError]
    split <;> rfl
  | probeError =>
    simp only [State.detect]
    split <;> rfl
  | scError b l =>
    simp only [State.detect]
    split
    · exact buffers_of_withoutMemory ((withoutMemory_scError _ _).trans (withoutMemory_damage _ _ _))
    · exact buffers_of_withoutMemory (withoutMemory_scError _ _)
  | robError | csrIssueError | fetchMemError | fetchAckError | dcTagParity | dataMemError | ioMemError | dataAckError
  | loadReplay => rfl

/-- A reset empties both buffers (R723). -/
theorem buffersOk_of_empty (h : t.buffers = ([], [])) : t.buffersOk := by
  obtain ⟨hi, hd⟩ := Prod.mk.inj h
  simp [State.buffersOk, hi, hd]

theorem buffers_wake (s : State) : s.wake.buffers = ([], []) := rfl

theorem buffers_cold (s : State) : s.cold.buffers = ([], []) := rfl

theorem buffers_powerOn (s : State) : s.powerOn.buffers = ([], []) := rfl

/-- What an event does in one case, and nothing otherwise. -/
theorem buffersOk_ite {c : Prop} [Decidable c] {u : State} (ht : t.buffersOk) (hu : u.buffersOk) :
    (if c then t else u).buffersOk := by
  split
  · exact ht
  · exact hu

theorem buffersOk_apply (hs : s.buffersOk) (e : EnvEvent) : (s.apply e).buffersOk := by
  cases e with
  | external n =>
    have h : (s.externalRequest n).buffers = s.buffers := by
      unfold State.externalRequest
      split
      · split <;> rfl
      · rfl
    exact buffersOk_ite (buffersOk_of_buffers h hs) hs
  | interCore0 | interCore1 | mailRequest | sleepInterrupt | sleepEnter => exact buffersOk_ite hs hs
  | mailStored src m =>
    refine buffersOk_of_buffers ?_ hs
    simp only [State.apply, State.mailArrives]
    split <;> rfl
  | intReqSent =>
    refine buffersOk_of_buffers ?_ hs
    simp only [State.apply, State.intReqSent]
    split <;> rfl
  | agentWrite a b => exact buffersOk_of_buffers (buffers_agentWrites s a b) hs
  | lineReplaced l =>
    exact buffersOk_ite (buffersOk_of_buffers (buffers_of_withoutMemory (withoutMemory_lineLeaves s l)) hs) hs
  | coreConnection | iorSet | earlyStore => exact hs
  | hwError h =>
    cases h with
    | loadReplay =>
      exact buffersOk_ite (buffersOk_of_buffers (buffers_of_withoutMemory (withoutMemory_scError _ 2)) hs) hs
    | _ => exact buffersOk_ite (buffersOk_of_buffers (buffers_detect s _) hs) hs
  | wakeUp => exact buffersOk_ite (buffersOk_of_empty (buffers_wake s)) hs
  | coldReset => exact buffersOk_of_empty (buffers_cold s)
  | powerOnReset => exact buffersOk_of_empty (buffers_powerOn s)

end

/-! ## The step -/

/-- Settles O54: each of the four things a step can be keeps the buffers as they should be. -/
theorem stepKeepsBuffers : Obligations.StepKeepsBuffers := by
  intro s t hs h
  obtain ⟨p, rest, -, rfl⟩ | ⟨e, rest, -, rfl⟩ | ⟨-, rfl⟩ | h := step_next h
  · exact buffersOk_of_buffers (buffers_of_withoutMemory (withoutMemory_foretell { s with inputs := rest } p)) hs
  · exact buffersOk_apply (s := { s with inputs := rest }) hs e
  · exact hs
  · exact buffersOk_boundary h hs

end Sys2Proof.Machine
end

section
/-! What translation and the debug matches do to a data access: misses, denials, a multiple match, and the two
matches. -/

namespace Sys2Proof.Machine

/-! ## The checks of the physical address -/

/-- Past its decode stage the instruction makes all the checks of `q` at once, after at most one free value. -/
def State.Accesses (s : State) (q : MemReq) (r : Result) : Prop :=
  ∃ u, s.SameButDraws u ∧ ∃ run, r = (u.check q).andThen run

section
variable {s : State} {p p₀ : Pipe} {q q₀ : MemReq}

theorem accesses_andThen {u : State} (hu : s.SameButDraws u) (q : MemReq) (run : PAddr → State → State) :
    s.Accesses q ((u.check q).andThen run) := ⟨u, hu, run, rfl⟩

theorem accesses_atDecode {r : Result} (h : some (p₀, q₀) = some (p, q)) (hp : s.passes p) (ha : s.Accesses q₀ r) :
    s.Accesses q (s.atDecode none p₀ r) := by
  obtain ⟨rfl, rfl⟩ := Prod.mk.injEq .. ▸ Option.some.inj h
  rwa [atDecode_run hp]

theorem accesses_load {ra : Reg} {n : Nat} {use : State → Vec → State} (h : unlessNull ra p₀ q₀ = some (p, q))
    (hp : s.passes p) : s.Accesses q (if ra = 31 then s.execNull else s.atDecode none p₀ (s.execLoad q₀ n use)) := by
  unfold unlessNull at h
  split at h
  · cases h
  · rw [if_neg ‹_›]
    exact accesses_atDecode h hp (accesses_andThen (sameButDraws_refl s) _ _)

theorem accesses_inHm {run : PAddr → State → State} (h : s.inHm q₀ = some (p, q)) (hp : s.passes p) :
    s.Accesses q (s.atDecode s.privileged .int ((s.check q₀).andThen run)) := by
  unfold State.inHm at h
  split at h
  · rw [State.privileged, if_pos ‹_›]
    exact accesses_atDecode h hp (accesses_andThen (sameButDraws_refl s) _ _)
  · cases h

theorem accesses_int {run : PAddr → State → State} (h : some (.int, q₀) = some (p, q)) (hp : s.passes p) :
    s.Accesses q (s.atDecode none .int ((s.check q₀).andThen run)) :=
  accesses_atDecode h hp (accesses_andThen (sameButDraws_refl s) _ _)

theorem accesses_execFloatStore {fa : Reg} {va : Word} {n : Nat} {cls : MemClass} {k : DataKind} {conv : Word → Word}
    (h : some (.fp, s.storeReq va n cls (conv (s.useF fa k).1)) = some (p, q)) (hp : s.passes p) :
    s.Accesses q (s.execFloatStore fa va n cls k conv) :=
  accesses_atDecode h hp (accesses_andThen (sameButDraws_useF s fa k) _ _)

theorem accesses_execVecStore {fa : Reg} {n : Nat} {k : DataKind} {conv : Vec → Vec}
    (h : some (.simd, q₀.comparing n (conv (s.useV fa k).1)) = some (p, q)) (hp : s.passes p) :
    s.Accesses q (s.execVecStore fa q₀ n k conv) :=
  accesses_atDecode h hp (accesses_andThen (sameButDraws_useV s fa k) _ _)

theorem accesses_execIntLoad {ra : Reg} {n : Nat} {ext : Word → Word} (h : unlessNull ra .int q₀ = some (p, q))
    (hp : s.passes p) : s.Accesses q (s.execIntLoad ra q₀ n ext) := accesses_load h hp

theorem accesses_execFloatLoad {fa : Reg} {n : Nat} {k : DataKind} {conv : Word → Word}
    (h : unlessNull fa .fp q₀ = some (p, q)) (hp : s.passes p) : s.Accesses q (s.execFloatLoad fa q₀ n k conv) :=
  accesses_load h hp

theorem accesses_execVecLoad {fa : Reg} {n : Nat} {k : DataKind} {conv : Vec → Vec}
    (h : unlessNull fa .simd q₀ = some (p, q)) (hp : s.passes p) : s.Accesses q (s.execVecLoad fa q₀ n k conv) :=
  accesses_load h hp

theorem accesses_execStoreLow {fa : Reg} {va : Word} {b align : Nat} {k : DataKind} {conv : Vec → Vec}
    (h : some (.simd, s.lowReq va b align (conv (s.useV fa k).1)) = some (p, q)) (hp : s.passes p) :
    s.Accesses q (s.execStoreLow fa va b align k conv) := by
  unfold State.execStoreLow
  exact accesses_execVecStore h hp

theorem accesses_execStoreHigh {fa : Reg} {va : Word} {b align : Nat} {k : DataKind} {conv : Vec → Vec}
    (h : some (.simd, s.highReq va b align (conv (s.useV fa k).1)) = some (p, q)) (hp : s.passes p) :
    s.Accesses q (s.execStoreHigh fa va b align k conv) := by
  unfold State.execStoreHigh
  exact accesses_execVecStore h hp

theorem accesses_execPriLoad {ra : Reg} {n : Nat} (h : s.loadInHm ra q₀ = some (p, q)) (hp : s.passes p) :
    s.Accesses q (s.execPriLoad ra q₀ n) := by
  unfold State.loadInHm at h
  split at h
  · cases h
  · rw [State.execPriLoad, if_neg ‹_›]
    exact accesses_inHm h hp

theorem value_of_some (h : some (p₀, q₀) = some (p, q)) : q.value = q₀.value := by
  cases h
  rfl

theorem value_of_inPlace (h : s.inPlace q₀ = some (p, q)) : q.value = q₀.value := by
  unfold State.inPlace at h
  split at h
  · cases h; rfl
  · cases h

end

/-- Every instruction with a data access whose value match is not left open makes all its checks at once. -/
theorem exec_accesses {s : State} {i : Instr} {p : Pipe} {q : MemReq} (h : s.dataReq i = some (p, q))
    (hp : s.passes p) (hv : q.value ≠ .free) : s.Accesses q (exec i s) := by
  cases i with
  | ldbu | ldhu | ldw | ldl | ldlU | ldwNc | ldlNc => exact accesses_execIntLoad h hp
  | flds | fldd | lddNc => exact accesses_execFloatLoad h hp
  | ldwe | ldse | ldde | vlds | vldd | vldwU | vldsU | vlddU | vlddNc => exact accesses_execVecLoad h hp
  | stb | sth | stw | stl | stlU | stwNc | stlNc | ldwInc | ldwDec | ldwSet | ldlInc | ldlDec | ldlSet | lldw | lldl =>
    exact accesses_int h hp
  | fsts | fstd | stdNc => exact accesses_execFloatStore h hp
  | vsts | vstd | vstwU | vstsU | vstdU | vstdNc => exact absurd (value_of_some h) hv
  | vstwUl | vstsUl | vstdUl => exact accesses_execStoreLow h hp
  | vstwUh | vstsUh | vstdUh => exact accesses_execStoreHigh h hp
  | lstw | lstl => exact absurd (value_of_inPlace h) hv
  | priLdwP | priLdlP | priLdwV | priLdlV | priLdwVpte | priLdlVpte => exact accesses_execPriLoad h hp
  | priStwP | priStlP | priStwV | priStlV | priLdwIncP | priLdlIncP | priLdwDecP | priLdlDecP | priLdwSetP
  | priLdlSetP => exact accesses_inHm h hp
  | _ => cases h

/-- An access that reaches an address goes on to the checks of that address, which see its value unless the value match is
left open. -/
theorem exec_accessCheck {s : State} {i : Instr} {p : Pipe} {q : MemReq} {pa : PAddr} (h : s.dataReq i = some (p, q))
    (hp : s.passes p) (hr : s.reaches q pa) :
    ∃ v x, s.SameButDraws v ∧ (q.value ≠ .free → x = q.value) ∧
      ∀ t, v.accessCheck { q with value := x } pa = .trap t → exec i s = .next t := by
  by_cases hv : q.value = .free
  · obtain ⟨u, hu, hstop⟩ := exec_checks h hp
    obtain ⟨hnone, htr⟩ := checks_of_reaches (hu.reaches hr)
    obtain ⟨v, x, hsame, hacc⟩ := hstop.access hnone pa htr
    exact ⟨v, x, hsame, absurd hv, hacc⟩
  · obtain ⟨u, hu, run, hx⟩ := exec_accesses h hp hv
    obtain ⟨hnone, htr⟩ := checks_of_reaches (hu.reaches hr)
    refine ⟨u, q.value, hu, fun _ => rfl, fun t ht => ?_⟩
    rw [hx, State.check, hnone, htr]
    exact congrArg (Checked.andThen · run) ht

/-! ## What matches -/

theorem and_eq_zero_iff (w mask : Word) :
    w &&& mask = 0 ↔ ∀ k, k < 64 → mask.getLsbD k = true → w.getLsbD k = false := by
  constructor
  · intro h k _ hm
    have hk : (w &&& mask).getLsbD k = false := by
      rw [h]
      exact BitVec.getLsbD_zero
    rwa [BitVec.getLsbD_and, hm, Bool.and_true] at hk
  · refine fun h => BitVec.eq_of_getLsbD_eq fun k hk => ?_
    refine Eq.trans ?_ BitVec.getLsbD_zero.symm
    rw [BitVec.getLsbD_and]
    cases hm : mask.getLsbD k with
    | false => exact Bool.and_false _
    | true => rw [h k hk hm, Bool.false_and]

/-- A masked comparison with a mode for each bit, of the low `n + 1` bits (R703). -/
theorem masked_iff {width : Word} {n : Nat} (hn : n < 64) (hw : ∀ k, k < 64 → width.getLsbD k = decide (k ≤ n))
    (a m mode mask : Word) :
    (((a ^^^ m ^^^ ~~~mode) &&& mask &&& width == 0) = true ↔
      ∀ k, k ≤ n → mask.getLsbD k = true → (mode.getLsbD k = true ↔ a.getLsbD k = m.getLsbD k)) := by
  have bit {k : Nat} (hk : k < 64) : (a ^^^ m ^^^ ~~~mode).getLsbD k = false ↔
      (mode.getLsbD k = true ↔ a.getLsbD k = m.getLsbD k) := by
    rw [BitVec.getLsbD_xor, BitVec.getLsbD_xor, BitVec.getLsbD_not, decide_eq_true hk]
    cases a.getLsbD k <;> cases m.getLsbD k <;> cases mode.getLsbD k <;> decide
  rw [beq_iff_eq, BitVec.and_assoc, and_eq_zero_iff]
  constructor
  · intro h k hk hm
    have hlt : k < 64 := by omega
    exact (bit hlt).mp (h k hlt (by rw [BitVec.getLsbD_and, hm, hw k hlt, decide_eq_true hk]; rfl))
  · intro h k hk hm
    rw [BitVec.getLsbD_and, Bool.and_eq_true, hw k hk, decide_eq_true_eq] at hm
    exact (bit hk).mpr (h k hm.2 hm.1)

/-- The address match: an enable that suits the access, and agreement of the address it compares (R703). -/
def State.addressMatches (s : State) (q : MemReq) (pa : PAddr) : Prop :=
  let m := s.dbox.daMatch
  let usesPa := m.getLsbD 55
  let a : Word := if usesPa then pa.setWidth 64 else q.va
  ((m.getLsbD 53 = true ∧ q.reads = true) ∨ (m.getLsbD 54 = true ∧ q.writes = true)) ∧
    (usesPa = true ∨ q.phys = false) ∧
    ∀ k, k ≤ (if usesPa then 47 else 52) → s.dbox.daMask.getLsbD k = true →
      (s.dbox.daMatchMode.getLsbD k = true ↔ a.getLsbD k = m.getLsbD k)

theorem daHit_iff (s : State) (q : MemReq) (pa : PAddr) : s.daHit q pa = true ↔ s.addressMatches q pa := by
  have phys := masked_iff (width := 0xFFFFFFFFFFFF) (n := 47) (by decide) (by decide)
  have virt := masked_iff (width := 0x1FFFFFFFFFFFFF) (n := 52) (by decide) (by decide)
  unfold State.daHit State.addressMatches
  dsimp only
  cases s.dbox.daMatch.getLsbD 55 with
  | false =>
    simp only [Bool.and_eq_true, Bool.or_eq_true, Bool.not_eq_true', Bool.false_eq_true, if_false, false_or, virt,
      and_assoc]
  | true => simp only [Bool.and_eq_true, Bool.or_eq_true, Bool.true_or, if_true, true_or, true_and, and_true, phys]

/-- The value match of a store of `n` bytes: on, the lanes that count all stored, and agreement in the bits that count
(R439, R704; D30). -/
def State.valueMatches (s : State) (q : MemReq) : Prop :=
  s.dbox.dcCtl.getLsbD 19 = true ∧ ∃ n v, q.value = .bytes n v ∧
    (∀ k, k < 8 → (s.dbox.dvMask.extractLsb' (8 * k) 8 : BitVec 8) ≠ 0 → q.lane ≤ k ∧ k < q.lane + n) ∧
    ∀ k, k < 64 → s.dbox.dvMask.getLsbD k = true → (v <<< (8 * q.lane)).getLsbD k = s.dbox.dvMatch.getLsbD k

theorem lanesCovered_iff (mask : Word) (o n : Nat) : lanesCovered mask o n = true ↔
    ∀ k, k < 8 → (mask.extractLsb' (8 * k) 8 : BitVec 8) ≠ 0 → o ≤ k ∧ k < o + n := by
  simp only [lanesCovered, List.all_eq_true, List.mem_range, Bool.or_eq_true, beq_iff_eq, Bool.and_eq_true,
    decide_eq_true_eq, or_iff_not_imp_left, ne_eq]

theorem xor_and_eq_zero_iff (w x mask : Word) : ((w ^^^ x) &&& mask == 0) = true ↔
    ∀ k, k < 64 → mask.getLsbD k = true → w.getLsbD k = x.getLsbD k := by
  simp only [beq_iff_eq, and_eq_zero_iff, BitVec.getLsbD_xor, bne_eq_false_iff_eq]

/-- Where the value match is not left open, no free bit has a say in it. -/
theorem dvHit_iff (s : State) {q : MemReq} (hv : q.value ≠ .free) (f : Bool) :
    s.dvHit q f = true ↔ s.valueMatches q := by
  unfold State.dvHit State.valueMatches
  cases hq : q.value with
  | none => simp
  | free => exact absurd hq hv
  | bytes n v =>
    simp only [State.dvEn, Bool.and_eq_true, lanesCovered_iff, xor_and_eq_zero_iff, StoreValue.bytes.injEq, and_assoc]
    exact and_congr_right fun _ => ⟨fun h => ⟨n, v, rfl, rfl, h⟩, fun ⟨_, _, hn, hv, h⟩ => hn ▸ hv ▸ h⟩

theorem dvHit_off {s : State} (h : s.dvEn = false) (q : MemReq) (f : Bool) : s.dvHit q f = false := by
  unfold State.dvHit
  split <;> simp [h]

/-! ## What a match does -/

/-- The table of R705, by whether the matches are joined (DAV_MATCH_EN), the address matches and the value matches: the
bits of DS_STAT and what DVA takes. -/
def State.matchOutcome (s : State) (q : MemReq) (pa : PAddr) : Bool → Bool → Bool → Option State
  | true, true, true => some (s.raiseDataPhys q 0x182000 0 pa)
  | true, _, _ => none
  | false, true, true => some (s.raiseData q .dfault 0x182000 0 q.va)
  | false, true, false => some (s.raiseData q .dfault 0x2000 0 q.va)
  | false, false, true => some (s.raiseDataPhys q 0x80000 0 pa)
  | false, false, false => none

theorem matchCheck_eq (s : State) (q : MemReq) (pa : PAddr) : ∃ t, s.SameButDraws t ∧
    s.matchCheck q pa = t.matchOutcome q pa s.davEn (s.daHit q pa) (s.dvHit q (s.free.getLsbD 1)) := by
  refine ⟨if s.dvEn && q.value = .free then s.drawn else s, ?_, ?_⟩
  · split
    · exact (sameButDraws_refl s).drawn
    · exact sameButDraws_refl s
  · unfold State.matchCheck
    dsimp only
    cases s.davEn <;> cases s.daHit q pa <;> cases s.dvHit q (s.free.getLsbD 1) <;> rfl

/-- No match, or one of the two where both are asked for. -/
theorem matchOutcome_none (t : State) (q : MemReq) (pa : PAddr) {joined da dv : Bool}
    (h : (joined = true ∧ ¬(da = true ∧ dv = true)) ∨ (¬da = true ∧ ¬dv = true)) :
    t.matchOutcome q pa joined da dv = none := by
  obtain ⟨rfl, h⟩ | ⟨hda, hdv⟩ := h
  · cases da with
    | false => rfl
    | true =>
      obtain rfl : dv = false := Bool.eq_false_iff.mpr fun hdv => h ⟨rfl, hdv⟩
      rfl
  · obtain rfl : da = false := Bool.eq_false_iff.mpr hda
    obtain rfl : dv = false := Bool.eq_false_iff.mpr hdv
    cases joined <;> rfl

theorem accessCheck_of_match {s t : State} {q : MemReq} {pa : PAddr} (h : s.matchCheck q pa = some t) :
    s.accessCheck q pa = .trap t := by
  rw [State.accessCheck, h]

theorem State.SameButDraws.trans {s u v : State} (h : s.SameButDraws u) (h' : u.SameButDraws v) : s.SameButDraws v := by
  obtain ⟨m, rfl⟩ := h
  obtain ⟨n, rfl⟩ := h'
  exact ⟨n, rfl⟩

theorem State.SameButDraws.davEn {s u : State} (h : s.SameButDraws u) : u.davEn = s.davEn := by
  obtain ⟨n, rfl⟩ := h
  rfl

/-- What is matched does not depend on how many free values have been drawn. -/
theorem State.SameButDraws.daHit_iff {s u : State} (h : s.SameButDraws u) (q : MemReq) (pa : PAddr) :
    u.daHit q pa = true ↔ s.addressMatches q pa := by
  obtain ⟨n, rfl⟩ := h
  exact Machine.daHit_iff _ q pa

theorem State.SameButDraws.dvHit_iff {s u : State} (h : s.SameButDraws u) {q : MemReq} (hv : q.value ≠ .free)
    (f : Bool) : u.dvHit q f = true ↔ s.valueMatches q := by
  obtain ⟨n, rfl⟩ := h
  exact Machine.dvHit_iff _ hv f

/-! ## Translation -/

/-- A miss of a /vpte form is the double one (R287, R603). -/
theorem translate_vpte {s : State} {q : MemReq} (hy : q.bypasses = false) (hv : q.vpte = true)
    (hl : s.dtbLookup q.pm q.reads q.writes q.va = .miss) : s.translate q = .trap s.raiseDtbDouble := by
  simp only [State.translate, hy, hl, hv, Bool.false_eq_true, if_false, if_true]

theorem State.SameButDraws.dtbLookup {s u : State} (h : s.SameButDraws u) (pm : Mode) (r w : Bool) (va : Word) :
    u.dtbLookup pm r w va = s.dtbLookup pm r w va := by
  obtain ⟨n, rfl⟩ := h
  rfl

/-- The double miss writes EXC_PC and EXC_SUM[REG] only (R603). -/
theorem raiseDtbDouble_faults {s u : State} (h : s.SameButDraws u) :
    let t := u.raiseDtbDouble
    s.faultsTo t 0x800 ∧ t.dbox = s.dbox ∧ t.ebox = s.ebox ∧ t.ibox.iglInst = s.ibox.iglInst ∧
      t.ibox.excSum = s.irRa.setWidth 64 <<< 8 := by
  have hm := (entered_raiseDtbDouble u).atEntry.mode
  obtain ⟨n, rfl⟩ := h
  exact ⟨⟨rfl, hm, rfl, rfl, rfl⟩, rfl, rfl, rfl, BitVec.zero_or⟩

/-! ## The obligation -/

/-- The instruction faults to DFAULT with the records of a match; `dva` says what is in DVA. -/
def State.matchFaults (s : State) (i : Instr) (q : MemReq) (bits : Word) (dva : Word → Prop) : Prop :=
  ∃ t, exec i s = .next t ∧ s.faultsTo t 0xC80 ∧ dva t.dbox.dva ∧ s.faultRecords t q bits

/-- Settles O46: misses, denials and a multiple match as the translation answers them; the debug matches by the table of
R705. -/
theorem translationFaults : Obligations.TranslationFaults := by
  intro s i p q hd hp
  refine ⟨fun hn hb ha hy => ?translation, fun pa hr => ?matched⟩
  case translation =>
    obtain ⟨u, hu, hstop⟩ := exec_checks hd hp
    have hnone : u.addressCheck q = none := addressCheck_none (.inr hb) ha
    have hn' := hu.noDataMatch hn
    rw [← hu.dtbLookup]
    refine ⟨fun hl hv => ?double, fun hl hv => ?single, fun a fr fw hl => ?denied, fun hl => ?multiple⟩
    case double => exact ⟨_, hstop.translation hnone _ (translate_vpte hy hv hl), raiseDtbDouble_faults hu⟩
    case single =>
      have hf := dataFault_raiseData hu q (if q.va.getLsbD 52 then .dtbmSingle1 else .dtbmSingle0) 0 q.va
      obtain ⟨he, hg, hs, wr, hwr, hds⟩ := hf.records
      exact ⟨_, hstop.translation hnone _ (translate_miss hn' hy hv hl), offset_single _ ▸ hf.faults, hf.dva_eq, he, hg,
        hs, wr, hwr, hds.trans (congrArg (· ||| _) BitVec.zero_or)⟩
    case denied =>
      have hf := dataFault_raiseData hu q .dfault (flag a 1 ||| flag fr 2 ||| flag fw 3) q.va
      exact ⟨_, hstop.translation hnone _ (translate_denied hn' hy hl), hf.faults, hf.dva_eq, hf.records⟩
    case multiple => exact hstop.stuck hnone _ (translate_multiple hy hl)
  case matched =>
    obtain ⟨v, x, hv, hx, hacc⟩ := exec_accessCheck hd hp hr
    have taken {t : State} {bits a : Word} {dva : Word → Prop} (ha : dva a)
        (hm : v.matchCheck { q with value := x } pa = some t) (hf : DataFault s q 0xC80 bits a t) :
        s.matchFaults i q bits dva :=
      ⟨t, hacc t (accessCheck_of_match hm), hf.faults, hf.dva_eq ▸ ha, hf.records⟩
    have table {joined da dv : Bool} (hj : s.davEn = joined) (hd : v.daHit q pa = da)
        (hdv : v.dvHit { q with value := x } (v.free.getLsbD 1) = dv) :
        ∃ t, s.SameButDraws t ∧
          v.matchCheck { q with value := x } pa = t.matchOutcome { q with value := x } pa joined da dv := by
      obtain ⟨t, ht, hm⟩ := matchCheck_eq v { q with value := x } pa
      exact ⟨t, hv.trans ht, hj ▸ hd ▸ hdv ▸ hv.davEn ▸ hm⟩
    have da_iff := hv.daHit_iff q pa
    refine ⟨v.dvHit { q with value := x } (v.free.getLsbD 1) = true, fun hq => ?stated, fun hoff => ?off,
      fun hj ha hn => ?address, fun hj ha hdv => ?both, fun hj ha hdv => ?value, fun hj ha hdv => ?joined,
      fun hq h => ?none⟩
    case stated =>
      obtain rfl := hx hq
      exact hv.dvHit_iff hq _
    case off =>
      obtain ⟨n, rfl⟩ := hv
      exact Bool.eq_false_iff.mp (dvHit_off hoff _ _)
    case address =>
      obtain ⟨t, ht, hm⟩ := table hj (da_iff.mpr ha) (Bool.eq_false_iff.mpr hn)
      exact taken (dva := (· = q.va)) rfl hm (dataFault_raiseData ht q .dfault 0x2000 q.va)
    case both =>
      obtain ⟨t, ht, hm⟩ := table hj (da_iff.mpr ha) hdv
      exact taken (dva := (· = q.va)) rfl hm (dataFault_raiseData ht q .dfault 0x182000 q.va)
    case value =>
      obtain ⟨t, ht, hm⟩ := table hj (Bool.eq_false_iff.mpr (mt da_iff.mp ha)) hdv
      exact taken (dva := fun a => a.extractLsb' 0 48 = pa) (extractLsb'_dvaOfPhys t pa) hm
        (dataFault_raiseDataPhys ht q 0x80000 pa)
    case joined =>
      obtain ⟨t, ht, hm⟩ := table hj (da_iff.mpr ha) hdv
      exact taken (dva := fun a => a.extractLsb' 0 48 = pa) (extractLsb'_dvaOfPhys t pa) hm
        (dataFault_raiseDataPhys ht q 0x182000 pa)
    case none =>
      obtain rfl := hx hq
      obtain ⟨t, -, hm⟩ := matchCheck_eq s q pa
      have hdv := (hv.dvHit_iff hq (v.free.getLsbD 1)).trans (dvHit_iff s hq (s.free.getLsbD 1)).symm
      rw [hm]
      exact matchOutcome_none t q pa (by rwa [daHit_iff, ← hdv])

end Sys2Proof.Machine
end

section
/-! An instruction boundary at which nothing comes between: the fetch, the word it gives, and the instruction it decodes to. -/

namespace Sys2Proof.Machine

/-! ## The boundary -/

/-- The next step fetches: nothing from outside, no late error, no interrupt, and the core runs. -/
structure State.Fetching (s : State) : Prop where
  inputs : s.inputs = []
  running : s.coreState = .running
  lateErrors : s.lateErrors = []
  recognised : s.recognised = none

/-- The state from which the fetch is made, once the target of a PRI_RET is known to be good. -/
def State.atFetch (s : State) : State := { s with lastExc := none, retJump := none }

section
variable {s t : State}

theorem step_of_fetching (h : s.Fetching) : step s = runOne s := by
  obtain ⟨hi, hc, hl, hr⟩ := h
  have hlate : s.reportLate = s := if_pos (List.isEmpty_iff.mpr hl)
  simp [step, stepInOrder, boundary, hi, hc, hlate, hr]

theorem runOne_of_trap (h : ({ s with lastExc := none } : State).fetch = .trap t) :
    runOne s = .next (t.idle s.modeBits) := by
  rw [runOne, h]

theorem runOne_of_word (h : ({ s with lastExc := none } : State).fetch = .word t) : runOne s = runFetched t := by
  rw [runOne, h]

/-- With no wrong parity in the way, the lines that hit are tried one after the other (R276). -/
theorem fetch_eq (hb : s.badFetch = false)
    (hl : ∀ l ∈ s.icache, l.badTag = false ∧ (l.hits s = false ∨ l.badData = false)) :
    ({ s with lastExc := none } : State).fetch = fetchFrom (s.icache.filter fun l => l.hits s) s.atFetch := by
  have hdata : ∀ l ∈ s.icache, (l.hits s && l.badData) = false := fun l hm => by
    obtain ⟨-, h | h⟩ := hl l hm <;> simp [h]
  have aged : s.atFetch.icacheAged = s.atFetch :=
    if_neg (by
      rw [List.any_eq_true]
      rintro ⟨l, hm, hbad⟩
      have hbad' : (l.index == icIndex s.pc && l.badTag || l.hits s && l.badData) = true := hbad
      simp [(hl l hm).1, hdata l hm] at hbad')
  have tags : ¬(s.icache.any fun l => l.index == icIndex s.pc && l.badTag) = true := by
    rw [List.any_eq_true]
    rintro ⟨l, hm, hbad⟩
    simp [(hl l hm).1] at hbad
  have data : ¬(s.icache.any fun l => l.hits s && l.badData) = true := by
    rw [List.any_eq_true]
    rintro ⟨l, hm, hbad⟩
    simp [hdata l hm] at hbad
  have checked : s.atFetch.icacheChecked = s.atFetch := (if_neg tags).trans (if_neg data)
  have hfetch : ({ s with lastExc := none } : State).fetch = s.atFetch.icacheAged.icacheChecked.fetchCached :=
    if_neg (Bool.eq_false_iff.mp hb)
  rw [hfetch, aged, checked]
  rfl

/-! ## The word -/

/-- The word at `p`, of a line or of memory. -/
def State.wordFrom (s : State) (p : PAddr) : Option ICacheLine → InsnWord
  | some l => l.words[(p.extractLsb' 2 5).toNat]'(p.extractLsb' 2 5).isLt
  | none => wordAt s.codeMem (loc p)

/-- With no store whose old bytes a fetch may see, the word is there and nothing is drawn (R247). -/
theorem fetchWord_settled (h : s.codeHist = []) (l : Option ICacheLine) (p : PAddr) :
    s.fetchWord l p = (s.wordFrom p l, s) := by
  have hold : s.oldsAt p = [] := by rw [State.oldsAt, h, List.filter_nil, ite_self]
  cases l <;> simp [State.fetchWord, State.wordFrom, hold, wordSeen]

theorem fetchPair_settled (h : s.codeHist = []) (l : Option ICacheLine) (p : PAddr) :
    s.fetchPair l p = .word { s with ir := s.wordFrom p l, pair := s.wordFrom (p ^^^ 4) l } := by
  simp only [State.fetchPair, fetchWord_settled h]

/-- A fill changes the cache, and draws. -/
theorem icacheFill_frame (s : State) (e : Option ItbEntry) (p : PAddr) :
    ∃ c n, s.icacheFill e p = { s with icache := c, draws := n } := by
  have insert (u : State) (l : ICacheLine) : ∃ c n, u.icacheInsert l = { u with icache := c, draws := n } := by
    unfold State.icacheInsert
    dsimp only
    split <;> exact ⟨_, _, rfl⟩
  unfold State.icacheFill
  split
  · exact ⟨_, _, rfl⟩
  · dsimp only
    split
    · exact insert s _
    · exact insert { s with draws := s.draws + 32 } _

/-- A fetch that is not translated (R270). -/
theorem fetchMiss_bypassed (h : s.fetchBypasses = true) : s.fetchMiss = s.fetchMemory none (fetchPa s.pc) := by
  simp only [State.fetchMiss, h, if_true]

/-- A translated fetch goes where the ITB says, or faults (R275). -/
theorem fetchMiss_hit (h : s.fetchBypasses = false) {e : ItbEntry} {p : PAddr} (hl : s.itbLookup = .hit e p) :
    s.fetchMiss = s.fetchMemory (some e) p := by
  simp only [State.fetchMiss, h, hl, Bool.false_eq_true, if_false]

theorem fetchMiss_noExecute (h : s.fetchBypasses = false) (hl : s.itbLookup = .noExecute) :
    s.fetchMiss = .trap s.raiseItbAccess := by
  simp only [State.fetchMiss, h, hl, Bool.false_eq_true, if_false]

theorem fetchMiss_miss (h : s.fetchBypasses = false) (hl : s.itbLookup = .miss) :
    s.fetchMiss = .trap s.raiseItbMiss := by
  simp only [State.fetchMiss, h, hl, Bool.false_eq_true, if_false]

/-- A fetch that misses takes the word of memory and its neighbour (R270, R278, R505). -/
theorem fetchMemory_settled (h : s.codeHist = []) (ha : s.armedFetch = none) (e : Option ItbEntry) {p : PAddr}
    (hm : s.memExists p 4 = true) :
    ∃ c n, s.fetchMemory e p = .word { s with
      icache := c, draws := n, ir := wordAt s.codeMem (loc p), pair := wordAt s.codeMem (loc (p ^^^ 4)) } := by
  obtain ⟨c, n, hf⟩ := icacheFill_frame s e p
  refine ⟨c, n, ?_⟩
  have hpair : s.fetchMemory e p = (s.icacheFill e p).fetchPair none p := by
    simp [State.fetchMemory, hm, ha]
  rw [hpair, hf, fetchPair_settled (s := { s with icache := c, draws := n }) h]
  rfl

/-- A line that hits gives its word, if it is still there (R276). -/
theorem fetchFrom_line (h : s.codeHist = []) {l : ICacheLine} (ls : List ICacheLine)
    (hl : s.sameWithout l = true ∨ s.free.getLsbD 0 = true) :
    ∃ n, fetchFrom (l :: ls) s = .word { s with
      draws := n, ir := s.wordFrom (s.lineAddr l) (some l), pair := s.wordFrom (s.lineAddr l ^^^ 4) (some l) } := by
  rw [fetchFrom]
  split
  · exact ⟨s.draws, fetchPair_settled h _ _⟩
  · rw [if_pos (hl.resolve_left ‹_›)]
    exact ⟨s.draws + 1, fetchPair_settled (s := s.drawn) h _ _⟩

/-- The place of the word in its line. -/
theorem lineAddr_slot (s : State) (l : ICacheLine) : (s.lineAddr l).extractLsb' 2 5 = s.pc.extractLsb' 2 5 := by
  rw [State.lineAddr, BitVec.extractLsb'_append_eq_of_le (by omega), BitVec.extractLsb'_append_eq_of_add_le (by omega),
    BitVec.extractLsb'_eq_self]

theorem pair_slot (p : PAddr) : ((p ^^^ 4).extractLsb' 2 5).toNat = (p.extractLsb' 2 5).toNat ^^^ 1 := by
  have h : (p ^^^ 4).extractLsb' 2 5 = p.extractLsb' 2 5 ^^^ 1 := by
    rw [BitVec.extractLsb'_xor]
    rfl
  rw [h, BitVec.toNat_xor]
  rfl

/-! ## The instruction -/

/-- What the fetched instruction answers is the step's, finished (R691). -/
theorem runFetched_some {i : Instr} (h : decode s.plat.supplement s.ir = some i) :
    runFetched s = match exec i s with
      | .next t => .next (finish i s t)
      | .fault f => .fault f
      | .refused r => .refused r := by
  cases hx : exec i s <;> simp only [runFetched, h, hx]

theorem runFetched_none (h : decode s.plat.supplement s.ir = none) : runFetched s = .refused (.unknownWord s.ir) := by
  simp only [runFetched, h]

end

/-- Settles O4: a word of memory where no line hits, else the word of the first line that hits. -/
theorem stepRunsDecoded : Obligations.StepRunsDecoded := by
  intro s hi hc hl hr hb hh ha hp runs word
  have hfetch := fetch_eq hb fun l hm => ⟨(hp l hm).1, .inr (hp l hm).2⟩
  have hruns {u : State} {w : InsnWord} (hu : fetchFrom (s.icache.filter fun l => l.hits s) s.atFetch = .word u)
      (hplat : u.plat = s.plat) (hir : u.ir = w) : runs u w := by
    have hstep : step s = runFetched u := by
      rw [step_of_fetching ⟨hi, hc, hl, hr⟩, runOne_of_word (hfetch.trans hu)]
    subst hir
    exact ⟨fun i hd => hstep.trans (runFetched_some (hplat ▸ hd)), fun hd => hstep.trans (runFetched_none (hplat ▸ hd))⟩
  refine ⟨fun he => ?memory, fun p hn hm hplace => ?miss, fun l hl hs => ?line⟩
  case memory => rw [State.codeMem, he, List.foldl_nil]
  case miss =>
    have hnil : (s.icache.filter fun l => l.hits s) = [] := by
      rw [List.filter_eq_nil_iff]
      exact List.find?_eq_none.mp hn
    have hmiss : ∃ e, s.atFetch.fetchMiss = s.atFetch.fetchMemory e p := by
      obtain ⟨hy, rfl⟩ | ⟨hy, e, he⟩ := hplace
      · exact ⟨none, fetchMiss_bypassed hy⟩
      · exact ⟨some e, fetchMiss_hit (s := s.atFetch) hy he⟩
    obtain ⟨e, he⟩ := hmiss
    obtain ⟨c, n, hw⟩ := fetchMemory_settled (s := s.atFetch) hh ha e hm
    have hword := (congrArg (fetchFrom · s.atFetch) hnil).trans (he.trans hw)
    exact ⟨_, rfl, hruns hword rfl rfl⟩
  case line =>
    obtain ⟨ls, hls⟩ : ∃ ls, (s.icache.filter fun l => l.hits s) = l :: ls :=
      List.head?_eq_some_iff.mp (List.head?_filter.trans hl)
    obtain ⟨n, hw⟩ := fetchFrom_line (s := s.atFetch) hh ls hs
    have hk : ((s.atFetch.lineAddr l).extractLsb' 2 5).toNat = s.pc.toNat / 4 % 32 := by
      rw [lineAddr_slot, BitVec.extractLsb'_toNat, Nat.shiftRight_eq_div_pow]
      rfl
    have hword := (congrArg (fetchFrom · s.atFetch) hls).trans hw
    exact ⟨_, ⟨_, ((s.atFetch.lineAddr l).extractLsb' 2 5).isLt⟩,
      ⟨_, ((s.atFetch.lineAddr l ^^^ 4).extractLsb' 2 5).isLt⟩, hk, pair_slot _, rfl, hruns hword rfl rfl⟩

end Sys2Proof.Machine
end

section
/-! The faults found before an instruction runs: at the fetch, and by the checks of the decode stage. -/

namespace Sys2Proof.Machine

/-! ## What a step without an instruction leaves -/

/-- The state without all that the passing of time and the counting of events change (R671, R690, R762). -/
def State.withoutTime (s : State) : State :=
  { s with
    draws := 0, timerCount := 0, timerWild := false, hserrTime := 0, mergeWait := none
    ibox := { s.ibox with pc0Cr := 0, pc1Cr := 0, pending := 0, timerCtl := 0, hserrCnt := 0 }
    ebox := { s.ebox with tc := 0 } }

theorem withoutTime_countPc0 (s : State) (n : Nat) : (s.countPc0 n).withoutTime = s.withoutTime := by
  unfold State.countPc0
  dsimp only
  split <;> rfl

theorem withoutTime_countPc1 (s : State) (n : Nat) : (s.countPc1 n).withoutTime = s.withoutTime := by
  unfold State.countPc1
  dsimp only
  split <;> rfl

theorem withoutTime_countEvents (s : State) (m : BitVec 2) (c : EventClass) (r : Bool) :
    (s.countEvents m c r).withoutTime = s.withoutTime := by
  have second (t : State) (n : Nat) :
      (if t.counting true m then (t.countPc1 n).drawn else t).withoutTime = t.withoutTime := by
    split
    · exact withoutTime_countPc1 t n
    · rfl
  unfold State.countEvents
  dsimp only
  refine (second _ _).trans ?_
  split
  · exact withoutTime_countPc0 s _
  · rfl

theorem withoutTime_tickTc (s : State) (n : Nat) : (s.tickTc n).withoutTime = s.withoutTime := by
  unfold State.tickTc
  split <;> rfl

theorem withoutTime_tickTimer (s : State) (n : Nat) : (s.tickTimer n).withoutTime = s.withoutTime := by
  unfold State.tickTimer
  dsimp only
  repeat' split
  all_goals rfl

theorem withoutTime_tickHserr (s : State) (n : Nat) : (s.tickHserr n).withoutTime = s.withoutTime := by
  unfold State.tickHserr
  split <;> rfl

theorem withoutTime_clockTick (s : State) : s.clockTick.withoutTime = s.withoutTime :=
  (withoutTime_tickHserr _ _).trans ((withoutTime_tickTimer _ _).trans (withoutTime_tickTc s.drawn _))

theorem withoutTime_idle (s : State) (m : BitVec 2) : (s.idle m).withoutTime = s.withoutTime :=
  (withoutTime_clockTick _).trans (withoutTime_countEvents s _ _ _)

/-! ## Faults of the fetch -/

/-- A fetch whose address is not sign-extended is the target of a PRI_RET. -/
def State.badReturn (s : State) : Prop := badSext s.pc = true ∧ ∃ pc ra, s.retJump = some (pc, ra)

/-- `t` is entered at offset `off` by a fault of the fetch of `s`, with EXC_PC from `pc`: EXC_SUM[REG] open, its other bits
and IVA as they are for a fault with no cause bit, or as a PRI_RET records them (R617, R618; D18). -/
def State.fetchFaultsTo (s t : State) (off : BitVec 16) (pc : Word) : Prop :=
  t.pc = entryAddr s.ibox.priBase off ∧ t.mode = .hm ∧ t.ibox.excPc = sext53 pc ∧ t.gpr = s.gpr ∧ t.sr = s.sr ∧
    t.vr = s.vr ∧ t.fpcr = s.fpcr ∧ t.mem = s.mem ∧ t.lock = { s.lock with valid := false, flag := false } ∧
    (off = 0xD00 → badSext s.pc = false ∨ s.retJump = none →
      t.ibox.excSum &&& ~~~(0x1F00 : Word) = 0 ∧ t.ebox.iva = s.ebox.iva) ∧
    (∀ pc' ra, badSext s.pc = true → s.retJump = some (pc', ra) →
      t.ibox.excSum = (0x2000 : Word) ||| (ra.setWidth 64 <<< 8) ∧ t.ebox.iva = s.pc)

section
variable {s t : State} {off : BitVec 16} {pc : Word}

/-- None of it changes with time. -/
theorem State.fetchFaultsTo.idle (h : s.fetchFaultsTo t off pc) (m : BitVec 2) :
    s.fetchFaultsTo (t.idle m) off pc := by
  have hw := withoutTime_idle t m
  generalize t.idle m = u at hw
  have field {α : Type} (f : State → α) : f u.withoutTime = f t.withoutTime := congrArg f hw
  have hpc : u.pc = t.pc := field State.pc
  have hexc : u.ibox.excPc = t.ibox.excPc := field fun s => s.ibox.excPc
  have hsum : u.ibox.excSum = t.ibox.excSum := field fun s => s.ibox.excSum
  have hiva : u.ebox.iva = t.ebox.iva := field fun s => s.ebox.iva
  have hgpr : u.gpr = t.gpr := field State.gpr
  have hsr : u.sr = t.sr := field State.sr
  have hvr : u.vr = t.vr := field State.vr
  have hfpcr : u.fpcr = t.fpcr := field State.fpcr
  have hmem : u.mem = t.mem := field State.mem
  have hlock : u.lock = t.lock := field State.lock
  rw [State.fetchFaultsTo, mode_congr hpc, hpc, hexc, hsum, hiva, hgpr, hsr, hvr, hfpcr, hmem, hlock]
  exact h

/-- A fault of the fetch is the step's. -/
theorem step_fetchFault (hs : s.Fetching) (hf : ({ s with lastExc := none } : State).fetch = .trap t)
    (h : s.fetchFaultsTo t off pc) : ∃ u, step s = .next u ∧ s.fetchFaultsTo u off pc :=
  ⟨_, (step_of_fetching hs).trans (runOne_of_trap hf), h.idle s.modeBits⟩

/-- EXC_SUM[REG] is bits [12:8]. -/
theorem excSum_without_reg (bits : Word) (r : BitVec 5) :
    (bits ||| (r.setWidth 64 <<< 8)) &&& ~~~(0x1F00 : Word) = bits &&& ~~~(0x1F00 : Word) := by
  have hr : r.setWidth 64 <<< 8 &&& ~~~(0x1F00 : Word) = 0 := by
    revert r
    decide
  rw [BitVec.and_or_distrib_right, hr]
  exact BitVec.or_zero

/-- A fault with no cause bit, other than of a bad PRI_RET (R604, R617). -/
theorem fetchFaultsTo_enter (e : Exc) (h : ¬s.badReturn) :
    s.fetchFaultsTo ((s.atFetch.setExcSumFree 0).enter e s.pc) e.offset s.pc := by
  have hm : ((s.atFetch.setExcSumFree 0).enter e s.pc).mode = .hm :=
    (entered_enter (s := s) e s.pc rfl rfl).atEntry.mode
  exact ⟨rfl, hm, rfl, rfl, rfl, rfl, rfl, rfl, rfl, fun _ _ => ⟨excSum_without_reg 0 _, rfl⟩,
    fun pc' ra hb hr => absurd ⟨hb, pc', ra, hr⟩ h⟩

/-- An address that is not sign-extended (R617, R618; D7, D18). -/
theorem fetch_bad (h : badSext s.pc = true) : ({ s with lastExc := none } : State).fetch =
    .trap { ({ s with lastExc := none } : State).raiseBadFetch with retJump := none } := if_pos h

theorem fetch_badSequential (hb : badSext s.pc = true) (hr : s.retJump = none) :
    ({ s with lastExc := none } : State).fetch = .trap s.atFetch.raiseItbAccess := by
  rw [fetch_bad hb]
  simp only [State.raiseBadFetch, hr]
  rfl

/-- The target of a PRI_RET: with BAD_IVA, IVA and the register and the address of the PRI_RET (R618; D18). -/
theorem fetch_badReturn {ra : Reg} (hb : badSext s.pc = true) (hr : s.retJump = some (pc, ra)) :
    ({ s with lastExc := none } : State).fetch = .trap
      ((({ s.atFetch with ebox := { s.ebox with iva := s.pc } } : State).setExcSum 0x2000 ra).enter .iacv pc) := by
  rw [fetch_bad hb]
  simp only [State.raiseBadFetch, hr]
  rfl

theorem fetchFaultsTo_badReturn {ra : Reg} (hr : s.retJump = some (pc, ra)) (hb : badSext s.pc = true) :
    s.fetchFaultsTo
      ((({ s.atFetch with ebox := { s.ebox with iva := s.pc } } : State).setExcSum 0x2000 ra).enter .iacv pc) 0xD00 pc := by
  have hm := (entered_enter (s := s)
    (u := ({ s.atFetch with ebox := { s.ebox with iva := s.pc } } : State).setExcSum 0x2000 ra) .iacv pc rfl rfl).atEntry.mode
  refine ⟨rfl, hm, rfl, rfl, rfl, rfl, rfl, rfl, rfl, fun _ h => ?_, fun pc' ra' _ hr' => ?_⟩
  · obtain h | h := h
    · exact absurd (hb.symm.trans h) (by decide)
    · exact absurd (hr.symm.trans h) (by simp)
  · obtain ⟨rfl, rfl⟩ := Prod.mk.inj (Option.some.inj (hr.symm.trans hr'))
    exact ⟨rfl, rfl⟩

/-! ## The ITB -/

theorem fetchBypasses_of_translated (h : s.mode = .km ∨ s.mode = .um ∨ (s.mode = .vm ∧ s.pc.getLsbD 52 = true)) :
    s.fetchBypasses = false := by
  obtain h | h | ⟨h, hb⟩ := h
  · rw [State.fetchBypasses, h]
    rfl
  · rw [State.fetchBypasses, h]
    rfl
  · rw [State.fetchBypasses, h, hb]
    rfl

theorem itbLookup_of_no_hit (h : ∀ e ∈ s.itb, ¬e.hits s.vpn s.upn s.pc = true) : s.itbLookup = .miss := by
  simp only [State.itbLookup, List.find?_eq_none.mpr h]

/-- Where one entry alone hits, its enables decide (R275). -/
theorem itbLookup_of_only_hit {e : ItbEntry} (he : e ∈ s.itb) (hh : e.hits s.vpn s.upn s.pc = true)
    (honly : ∀ f ∈ s.itb, f.hits s.vpn s.upn s.pc = true → f = e) (hx : e.enables s.mode = false) :
    s.itbLookup = .noExecute := by
  obtain ⟨f, hf⟩ : ∃ f, s.itb.find? (fun e => e.hits s.vpn s.upn s.pc) = some f :=
    Option.isSome_iff_exists.mp (List.find?_isSome.mpr ⟨e, he, hh⟩)
  have hfh : f.hits s.vpn s.upn s.pc = true := by simpa only [hf] using List.find?_some hf
  obtain rfl := honly f (List.mem_of_find?_eq_some hf) hfh
  simp only [State.itbLookup, hf, hx, Bool.false_eq_true, if_false]

/-- With no line that hits, the fetch misses. -/
theorem fetch_of_no_line (hb : badSext s.pc = false) (hl : ∀ l ∈ s.icache, l.badTag = false ∧ l.hits s = false) :
    ({ s with lastExc := none } : State).fetch = s.atFetch.fetchMiss := by
  have hnil : (s.icache.filter fun l => l.hits s) = [] :=
    List.filter_eq_nil_iff.mpr fun l hm => Bool.eq_false_iff.mp (hl l hm).2
  rw [fetch_eq hb fun l hm => ⟨(hl l hm).1, .inl (hl l hm).2⟩, hnil, fetchFrom]

theorem offset_itbMiss (b : Bool) :
    (if b then Exc.itbMiss1 else Exc.itbMiss0).offset = if b then (0xA00 : BitVec 16) else 0x980 := by
  cases b <;> rfl

/-! ## The decode stage -/

theorem fen_of_off {p : Pipe}
    (h : ((p = .fp ∨ p = .simd) ∧ (s.ibox.upcr.getLsbD 1 = false ∨ s.ibox.upcr.getLsbD 0 = false)) ∨
      (p = .simd ∧ s.ibox.upcr.getLsbD 2 = false)) : s.fen p = true := by
  obtain ⟨rfl | rfl, h | h⟩ | ⟨rfl, h⟩ := h <;>
    simp only [State.fen, h, Bool.false_and, Bool.and_false, Bool.not_false, Bool.true_or, Bool.or_true]

/-- A fault of the decode stage records the word in IGL_INST, and its cause bits in EXC_SUM (R590, R606, R617). -/
theorem decodeFault_records (s : State) (bits : Word) (e : Exc) :
    let t := ((s.setExcSumFree bits).setIglInst false).enter e s.pc
    s.faultsTo t e.offset ∧ t.dbox = s.dbox ∧ t.ebox = s.ebox ∧ t.ibox.iglInst = s.ir.setWidth 64 ∧
      t.ibox.excSum &&& ~~~(0x1F00 : Word) = bits &&& ~~~(0x1F00 : Word) := by
  have hm : (((s.setExcSumFree bits).setIglInst false).enter e s.pc).mode = .hm :=
    (entered_enter (s := s) e s.pc rfl rfl).atEntry.mode
  have hsame : s.sameButRecords (((s.setExcSumFree bits).setIglInst false).enter e s.pc) := by
    rw [State.sameButRecords, State.enter, State.setIglInst, State.setExcSumFree, State.setExcSum, State.drawn]
  exact ⟨⟨rfl, hm, rfl, rfl, hsame⟩, rfl, rfl, BitVec.zero_or, excSum_without_reg _ _⟩

theorem atDecode_iaMatch {p : Pipe} (ha : s.iaMatch = true) (run : Result) :
    s.atDecode none p run = .next s.raiseIaMatch := by
  simp only [State.atDecode, ha, if_true]

theorem atDecode_fen {p : Pipe} (ha : s.iaMatch = false) (hf : s.fen p = true) (run : Result) :
    s.atDecode none p run = .next s.raiseFen := by
  simp only [State.atDecode, ha, hf, if_true, Bool.false_eq_true, if_false]

end

/-! ## The obligation -/

/-- Settles O49: the two checks of the decode stage, and the faults of the fetch. -/
theorem decodeFaults : Obligations.DecodeFaults := by
  refine ⟨fun s i hill => ?decode, fun s hi hc hl hr => ?fetch⟩
  case decode =>
    obtain ⟨run, hrun⟩ := exec_decodes i s
    rw [hill] at hrun
    refine ⟨fun ha => ⟨_, hrun.trans (atDecode_iaMatch ha run), decodeFault_records s (flag true 33) .iacv⟩,
      fun ha hoff => ⟨_, hrun.trans (atDecode_fen ha (fen_of_off hoff) run), ?_⟩⟩
    obtain ⟨hf, hd, he, hg, -⟩ := decodeFault_records s 0 .fen
    exact ⟨hf, hd, he, hg⟩
  case fetch =>
    have hs : s.Fetching := ⟨hi, hc, hl, hr⟩
    intro hit translated noLine entered
    have hit_iff (e : ItbEntry) : e.hits s.vpn s.upn s.pc = true ↔ hit e := ItbEntry.hits_iff e _ _ _
    have good (h : badSext s.pc = false) : ¬s.badReturn := fun hb => absurd (hb.1.symm.trans h) (by decide)
    refine ⟨fun hj hb => ?sequential, fun pc ra hj hb => ?target, fun ht hb hn hm => ?miss,
      fun ht hb hn e he hh honly hx => ?denied⟩
    case sequential =>
      have hret : ¬s.badReturn := fun ⟨_, pc, ra, h⟩ => absurd (hj.symm.trans h) (by simp)
      exact step_fetchFault hs (fetch_badSequential hb hj) (fetchFaultsTo_enter .iacv hret)
    case target => exact step_fetchFault hs (fetch_badReturn hb hj) (fetchFaultsTo_badReturn hj hb)
    case miss =>
      have hmiss : s.itbLookup = .miss := itbLookup_of_no_hit fun e he h => hm e he ((hit_iff e).mp h)
      have hf := (fetch_of_no_line hb hn).trans
        (fetchMiss_miss (s := s.atFetch) (fetchBypasses_of_translated ht) hmiss)
      exact step_fetchFault hs hf (offset_itbMiss _ ▸ fetchFaultsTo_enter _ (good hb))
    case denied =>
      have hno : s.itbLookup = .noExecute := by
        refine itbLookup_of_only_hit he ((hit_iff e).mpr hh) (fun f hf h => honly f hf ((hit_iff f).mp h)) ?_
        cases hmode : s.mode <;> rw [hmode] at hx <;> exact hx
      have hf := (fetch_of_no_line hb hn).trans
        (fetchMiss_noExecute (s := s.atFetch) (fetchBypasses_of_translated ht) hno)
      exact step_fetchFault hs hf (fetchFaultsTo_enter .iacv (good hb))

end Sys2Proof.Machine
end

section
/-! What the decoder gives: it undoes the encoder, and it gives the rows of the tables, with the platform's supplement
beside them (R350 to R370). -/

/-! ## From the encoder to the decoder -/

namespace Sys2Proof.Laws.RoundTrip

/-- Settles O2: the round trip of each constructor, in the order of the constructors. -/
theorem encodeThenDecode : Obligations.EncodeThenDecode := fun i =>
  i.casesOn sysCall sysCallB call ret jmp br bsr beq bne blt ble bgt bge blbc blbs fbeq fbne fblt fble fbgt fbge memb imemb
    rtc rcid halt rdF wrF rtid priRcsr priWcsr priRet priRetB lldw lldl ldwInc ldlInc ldwDec ldlDec ldwSet ldlSet lstw lstl
    ldwNc ldlNc lddNc stwNc stlNc stdNc ldwe ldse ldde vlds vldd vsts vstd
    addw addwL subw subwL addl addlL subl sublL mulw mulwL mull mullL umulh umulhL cmpeq cmpeqL cmplt cmpltL cmple cmpleL
    cmpult cmpultL cmpule cmpuleL and andL bic bicL bis bisL ornot ornotL xor xorL eqv eqvL nop fimovs fimovd
    faddd ifmovs ifmovd rfpcr wfpcr setfpec0 setfpec1 setfpec2 setfpec3 vaddd
    vldwU vstwU vldsU vstsU vlddU vstdU vstwUl vstwUh vstsUl vstsUh vstdUl vstdUh vlddNc vstdNc
    ldbu ldhu ldw ldl ldlU flds fldd stb sth stw stl stlU fsts fstd ldi ldih
    priLdwP priLdlP priLdwIncP priLdlIncP priLdwDecP priLdlDecP priLdwSetP priLdlSetP priLdwV priLdlV priLdwVpte priLdlVpte
    priStwP priStlP priStwV priStlV fetchd fetchdE flushd evictdl evictdg vinsf vinsw vcpyf vextf vextw

end Sys2Proof.Laws.RoundTrip

namespace Sys2Proof

/-- Settles O1: each of the thirteen words, taken apart by the decoder. -/
theorem decodeSamples : Obligations.DecodeSamples :=
  ⟨rfl, rfl, rfl, rfl, rfl, rfl, rfl, rfl, rfl, rfl, rfl, rfl, rfl⟩

/-! ## The rows of the tables -/

/-- A row of the tables under an opcode: a well-formed instruction that has a word. -/
def Instr.RowOf (op : Nat) (i : Instr) : Prop :=
  i.wellFormed = true ∧ ∃ w, encode i = some w ∧ (fieldOp w).toNat = op

/-- FIMOVS and FIMOVD, which stand under both operate opcodes (R366). -/
def Instr.IsFimov (i : Instr) : Prop := ∃ fa rc, i = .fimovs fa rc ∨ i = .fimovd fa rc

section
variable {w : InsnWord} {i : Instr}

theorem Instr.RowOf.under {op : Nat} (hi : i.RowOf op) (hop : (fieldOp w).toNat = op) : i.RowOf (fieldOp w).toNat := by
  rwa [hop]

theorem decodeMisc_row (h : decodeMisc w = some i) : i.RowOf 0x06 := by
  unfold decodeMisc at h
  split at h
  case isTrue =>
    cases h
    exact ⟨rfl, _, rfl, congrArg _ (fieldOp_encCsr ..)⟩
  case isFalse =>
    split at h
    case isTrue =>
      cases h
      exact ⟨rfl, _, rfl, congrArg _ (fieldOp_encCsr ..)⟩
    case isFalse => split at h <;> cases h <;> exact ⟨rfl, _, rfl, congrArg _ (fieldOp_encMem ..)⟩

theorem decodeFn08_row (h : decodeFn08 w = some i) : i.RowOf 0x08 := by
  unfold decodeFn08 at h
  split at h <;> cases h <;> exact ⟨rfl, _, rfl, congrArg _ (fieldOp_encMemFn ..)⟩

theorem decodeFn1C_row (h : decodeFn1C w = some i) : i.RowOf 0x1C := by
  unfold decodeFn1C at h
  split at h <;> cases h <;> exact ⟨rfl, _, rfl, congrArg _ (fieldOp_encMemFn ..)⟩

theorem decodeOpr18_row (h : decodeOpr18 w = some i) : i.RowOf 0x18 := by
  unfold decodeOpr18 at h
  split at h <;> cases h <;> exact ⟨rfl, _, rfl, congrArg _ (fieldOp_encOpr ..)⟩

theorem decodeOpr1A_row (h : decodeOpr1A w = some i) : i.RowOf 0x1A := by
  unfold decodeOpr1A at h
  split at h <;> cases h
  exact ⟨rfl, _, rfl, congrArg _ (fieldOp_encOpr ..)⟩

/-- A word with bits [15:13] zero is the OPR word of its fields (R361). -/
theorem encOpr_fields (hz : fieldZero w = 0) :
    encOpr (fieldOp w) (fieldFn8 w) (fieldRa w) (fieldRb w) (fieldRc w) = w := by
  unfold encOpr
  rw [← hz]
  simp only [fieldOp, fieldRa, fieldRb, fieldZero, fieldFn8, fieldRc, BitVec.extractLsb'_append_extractLsb'_eq_extractLsb']
  exact BitVec.extractLsb'_eq_self

/-- BIS of three times R31 has one word only, the word of NOP (R366, R406). -/
theorem bis_wellFormed (hop : (fieldOp w).toNat = 0x10) (hz : fieldZero w = 0) (hfn : (fieldFn8 w).toNat = 0x3A)
    (hw : w ≠ 0x43FF075F) : (Instr.bis (fieldRa w) (fieldRb w) (fieldRc w)).wellFormed = true := by
  have hfields := encOpr_fields hz
  have hop' : fieldOp w = 0x10 := BitVec.eq_of_toNat_eq hop
  have hfn' : fieldFn8 w = 0x3A := BitVec.eq_of_toNat_eq hfn
  by_contra hill
  have hregs : (fieldRa w = 31 ∧ fieldRb w = 31) ∧ fieldRc w = 31 := by simpa [Instr.wellFormed] using hill
  obtain ⟨⟨ha, hb⟩, hc⟩ := hregs
  rw [hop', hfn', ha, hb, hc] at hfields
  exact hw hfields.symm

theorem decodeOpr10_row (hop : (fieldOp w).toNat = 0x10) (hz : fieldZero w = 0) (h : decodeOpr10 w = some i) :
    i.RowOf 0x10 := by
  unfold decodeOpr10 at h
  split at h
  case h_15 hfn =>
    split at h <;> cases h
    case isTrue => exact ⟨rfl, _, rfl, rfl⟩
    case isFalse hw => exact ⟨bis_wellFormed hop hz hfn hw, _, rfl, congrArg _ (fieldOp_encOpr ..)⟩
  all_goals cases h <;> exact ⟨rfl, _, rfl, congrArg _ (fieldOp_encOpr ..)⟩

/-- Under the literal opcode stand its own rows, and FIMOVx. -/
theorem decodeOpr12_row (h : decodeOpr12 w = some i) : i.RowOf 0x12 ∨ i.RowOf 0x10 ∧ i.IsFimov := by
  unfold decodeOpr12 at h
  split at h <;> cases h
  case h_19 => exact .inr ⟨⟨rfl, _, rfl, congrArg _ (fieldOp_encOpr ..)⟩, _, _, .inl rfl⟩
  case h_20 => exact .inr ⟨⟨rfl, _, rfl, congrArg _ (fieldOp_encOpr ..)⟩, _, _, .inr rfl⟩
  all_goals exact .inl ⟨rfl, _, rfl, congrArg _ (fieldOp_encOprL ..)⟩

/-- What the tables decode is a row under the opcode of its word, or FIMOVx under the literal opcode: first the opcodes
with a decoder of their own, then the two with a bit that selects, last the opcodes that name one instruction each. -/
theorem decodeTable_row (h : decodeTable w = some i) :
    i.RowOf (fieldOp w).toNat ∨ (fieldOp w).toNat = 0x12 ∧ i.RowOf 0x10 ∧ i.IsFimov := by
  unfold decodeTable at h
  split at h
  case h_7 hop => /- opcode 0x06 -/ exact .inl ((decodeMisc_row h).under hop)
  case h_9 hop => /- opcode 0x08 -/ exact .inl ((decodeFn08_row h).under hop)
  case h_17 hop => /- opcode 0x10 -/
    obtain ⟨hz, h⟩ := Option.ite_none_right_eq_some.mp h
    exact .inl ((decodeOpr10_row hop hz h).under hop)
  case h_18 hop => /- opcode 0x12 -/ exact (decodeOpr12_row h).imp (·.under hop) fun hi => ⟨hop, hi⟩
  case h_19 hop => /- opcode 0x18 -/ exact .inl ((decodeOpr18_row (Option.ite_none_right_eq_some.mp h).2).under hop)
  case h_20 hop => /- opcode 0x1A -/ exact .inl ((decodeOpr1A_row (Option.ite_none_right_eq_some.mp h).2).under hop)
  case h_21 hop => /- opcode 0x1C -/ exact .inl ((decodeFn1C_row h).under hop)
  case h_1 hop => /- opcode 0x00 -/
    split at h <;> cases h <;> exact .inl (Instr.RowOf.under ⟨rfl, _, rfl, congrArg _ (fieldOp_encSys ..)⟩ hop)
  case h_8 hop => /- opcode 0x07 -/
    split at h <;> cases h <;> exact .inl (Instr.RowOf.under ⟨rfl, _, rfl, congrArg _ (fieldOp_encPriRet ..)⟩ hop)
  all_goals
    rename_i hop
    cases h <;> exact .inl ⟨rfl, _, rfl, by simp [hop]⟩

end

/-! ## The supplement -/

section
variable {sup : List (InsnWord × Instr)} {w : InsnWord} {i : Instr}

theorem lookupSupplement_some (h : lookupSupplement sup w = some i) : (w, i) ∈ sup ∧ i.mayStandFor w = true := by
  induction sup with
  | nil => cases h
  | cons e rest ih =>
    unfold lookupSupplement at h
    split at h
    case isTrue hfirst =>
      cases h
      exact ⟨hfirst.1 ▸ List.mem_cons_self, hfirst.2⟩
    case isFalse => exact (ih h).imp_left (List.mem_cons_of_mem _)

theorem decode_cases (h : decode sup w = some i) : decodeTable w = some i ∨ lookupSupplement sup w = some i := by
  unfold decode at h
  split at h
  case h_1 hl => exact .inr (hl.trans h)
  case h_2 => exact .inl h

/-- The rows without an encoding have no word (R369). -/
theorem encode_of_unencoded (h : i.unencoded = true) : encode i = none := by
  cases i with
  | priLdwP | priLdlP | priLdwIncP | priLdlIncP | priLdwDecP | priLdlDecP | priLdwSetP | priLdlSetP | priLdwV | priLdlV
  | priLdwVpte | priLdlVpte | priStwP | priStlP | priStwV | priStlV
  | fetchd | fetchdE | flushd | evictdl | evictdg | vinsf | vinsw | vcpyf | vextf | vextw => rfl
  | _ => cases h

theorem mayStandFor_iff :
    i.mayStandFor w = true ↔ i.unencoded = true ∧ ∀ op, i.supplementOp = some op → fieldOp w = op := by
  unfold Instr.mayStandFor
  cases i.supplementOp <;> simp

/-- A word may stand for one of a list of instructions under their common opcode only (R354, R355). -/
theorem fieldOp_of_mayStandFor {l : List Instr} {op : BitVec 6} (hw : i.mayStandFor w = true)
    (hl : l.all (fun j => j.supplementOp == some op) = true) (hi : i ∈ l) : fieldOp w = op :=
  (mayStandFor_iff.mp hw).2 op (beq_iff_eq.mp (List.all_eq_true.mp hl i hi))

end

/-! ## The obligation on what is decoded -/

/-- The word of a row decodes to the row again (R361 to R370). -/
theorem Instr.RowOf.roundTrip {i : Instr} {op : Nat} (h : i.RowOf op) :
    i.wellFormed = true ∧ ∃ w, encode i = some w ∧ decodeTable w = some i ∧ (fieldOp w).toNat = op := by
  obtain ⟨hwf, w, hw, hop⟩ := h
  exact ⟨hwf, w, hw, Laws.RoundTrip.encodeThenDecode i hwf w hw, hop⟩

/-- Settles O3: the rows of the tables, and the entries of the supplement. -/
theorem decodeGivesTableRows : Obligations.DecodeGivesTableRows := by
  refine ⟨fun w i h => ?table, fun sup w i h => (decode_cases h).imp_right fun hl => ?supplement⟩
  case table =>
    obtain hrow | ⟨hop, hrow, hfimov⟩ := decodeTable_row h
    · obtain ⟨hwf, w', hw', hdec, hop'⟩ := hrow.roundTrip
      exact ⟨hwf, w', hw', hdec, .inl (BitVec.eq_of_toNat_eq hop')⟩
    · obtain ⟨hwf, w', hw', hdec, hop'⟩ := hrow.roundTrip
      exact ⟨hwf, w', hw', hdec, .inr ⟨BitVec.eq_of_toNat_eq hop, BitVec.eq_of_toNat_eq hop', hfimov⟩⟩
  case supplement =>
    obtain ⟨hmem, hmay⟩ := lookupSupplement_some hl
    exact ⟨hmem, encode_of_unencoded (mayStandFor_iff.mp hmay).1, fun _ _ _ hi => fieldOp_of_mayStandFor hmay rfl hi,
      fun _ _ _ hi => fieldOp_of_mayStandFor hmay rfl hi⟩

end Sys2Proof
end

section
/-! Null instructions: an only destination that discards what is written (R358, R406, R423). -/

namespace Sys2Proof.Machine

/-- An operation or a load whose one destination is register 31, and NOP (R358, R406, R423, R508). -/
def Instr.onlyTo31 : Instr → Bool
  | .nop => true
  | .addw _ _ r | .addwL _ _ r | .subw _ _ r | .subwL _ _ r | .addl _ _ r | .addlL _ _ r | .subl _ _ r | .sublL _ _ r => r == 31
  | .mulw _ _ r | .mulwL _ _ r | .mull _ _ r | .mullL _ _ r | .umulh _ _ r | .umulhL _ _ r => r == 31
  | .cmpeq _ _ r | .cmpeqL _ _ r | .cmplt _ _ r | .cmpltL _ _ r | .cmple _ _ r | .cmpleL _ _ r => r == 31
  | .cmpult _ _ r | .cmpultL _ _ r | .cmpule _ _ r | .cmpuleL _ _ r => r == 31
  | .and _ _ r | .andL _ _ r | .bic _ _ r | .bicL _ _ r | .bis _ _ r | .bisL _ _ r => r == 31
  | .ornot _ _ r | .ornotL _ _ r | .xor _ _ r | .xorL _ _ r | .eqv _ _ r | .eqvL _ _ r | .ldi r _ _ | .ldih r _ _ => r == 31
  | .faddd _ _ r | .vaddd _ _ r | .ifmovs _ r | .ifmovd _ r | .fimovs _ r | .fimovd _ r | .rfpcr r => r == 31
  | .vinsf _ _ _ r | .vinsw _ _ _ r | .vcpyf _ r | .vextf _ _ r | .vextw _ _ r => r == 31
  | .ldbu r _ _ | .ldhu r _ _ | .ldw r _ _ | .ldl r _ _ | .ldlU r _ _ | .flds r _ _ | .fldd r _ _ => r == 31
  | .ldwNc r _ _ | .ldlNc r _ _ | .lddNc r _ _ | .ldwe r _ _ | .ldse r _ _ | .ldde r _ _ | .vlds r _ _ | .vldd r _ _ => r == 31
  | .vldwU r _ _ | .vldsU r _ _ | .vlddU r _ _ | .vlddNc r _ _ | .rdF r => r == 31
  | _ => false

section
variable {s : State}

/-- Such an instruction is null: past the address match it only advances, whatever the enables and its operands are. -/
theorem exec_onlyTo31 {i : Instr} (h : Instr.onlyTo31 i = true) : exec i s = s.execNull := by
  cases i with
  | nop => rfl
  | addw | addwL | subw | subwL | addl | addlL | subl | sublL | mulw | mulwL | mull | mullL | umulh | umulhL
  | cmpeq | cmpeqL | cmplt | cmpltL | cmple | cmpleL | cmpult | cmpultL | cmpule | cmpuleL | and | andL | bic | bicL
  | bis | bisL | ornot | ornotL | xor | xorL | eqv | eqvL | ldi | ldih
  | faddd | vaddd | ifmovs | ifmovd | fimovs | fimovd | rfpcr | vinsf | vinsw | vcpyf | vextf | vextw
  | ldbu | ldhu | ldw | ldl | ldlU | flds | fldd | ldwNc | ldlNc | lddNc | ldwe | ldse | ldde | vlds | vldd
  | vldwU | vldsU | vlddU | vlddNc | rdF => exact if_pos (beq_iff_eq.mp h)
  | _ => cases h

theorem exec_of_all_onlyTo31 {l : List Instr} (hl : l.all Instr.onlyTo31 = true) {i : Instr} (hi : i ∈ l) :
    exec i s = s.execNull := exec_onlyTo31 (List.all_eq_true.mp hl i hi)

/-- In HM a privileged load into register 31 is null (R358, R380). -/
theorem execPriLoad_31 (hm : s.mode = .hm) (ha : s.iaMatch = false) (q : MemReq) (n : Nat) :
    s.execPriLoad 31 q n = .next s.advance := (atDecode_privileged hm ha _).trans (if_pos rfl)

end

/-- Settles O10: both kinds are null, and a null instruction advances. -/
theorem nullInstructions : Obligations.NullInstructions := by
  intro s ra rb lit d d12 x2 x3 ha
  refine ⟨fun hm i hi => ?privileged, fun i hi => ?operation⟩
  case privileged =>
    simp only [List.mem_cons, List.not_mem_nil, or_false] at hi
    obtain rfl | rfl | rfl | rfl | rfl | rfl := hi <;> exact execPriLoad_31 hm ha _ _
  case operation => exact (exec_of_all_onlyTo31 rfl hi).trans (execNull_run ha)

end Sys2Proof.Machine
end

section
/-! The privileged instructions outside HM and the state they protect; PRI_RET; SYS_CALL, with its codes and its
entries. -/

namespace Sys2Proof.Machine

/-! ## OPCDEC and the protected state -/

section
variable {s : State}

/-- What is illegal goes no further than OPCDEC, whatever it would do and whatever matches (R595, R620). -/
theorem exec_illegal {i : Instr} {b : Bool} (h : s.illegal i = some b) : exec i s = .next (s.raiseOpcdec b) := by
  obtain ⟨run, hrun⟩ := exec_decodes i s
  rw [hrun, h]
  rfl

theorem privileged_outside (hm : s.mode ≠ .hm) : s.privileged = some false := if_neg hm

/-- The instruction raises OPCDEC, with its word in IGL_INST and LOCK_IGL 0 (R620). -/
theorem exec_illegal_faults {i : Instr} (h : s.illegal i = some false) :
    ∃ t, exec i s = .next t ∧ s.faultsTo t 0xD80 ∧ t.dbox = s.dbox ∧ t.ebox = s.ebox ∧
      t.ibox.iglInst = s.ir.setWidth 64 := ⟨_, exec_illegal h, raiseOpcdec_faults s⟩

end

/-- Settles O58: PRI_WCSR outside HM raises OPCDEC, and every other instruction protects that state in every mode. -/
theorem privilegedStateProtected : Obligations.PrivilegedStateProtected := by
  intro s t i hi hx
  by_cases hw : ∃ ra idx, i = .priWcsr ra idx
  · obtain ⟨ra, idx, rfl⟩ := hw
    have hm : s.mode ≠ .hm := hi.resolve_right fun h => h ra idx rfl
    have hill : s.illegal (.priWcsr ra idx) = some false := privileged_outside hm
    rw [exec_illegal hill] at hx
    exact protects_kept (kept_raiseOpcdec s false) t hx
  · exact exec_protects (fun ra idx he => hw ⟨ra, idx, he⟩) s t hx

/-- Settles O17: each of the twenty is illegal outside HM. -/
theorem privilegedOutsideHm : Obligations.PrivilegedOutsideHm := by
  intro s ra rb idx d hm i hi
  have hill : s.illegal i = s.privileged := by
    simp only [List.mem_cons, List.not_mem_nil, or_false] at hi
    obtain rfl | rfl | rfl | rfl | rfl | rfl | rfl | rfl | rfl | rfl | rfl | rfl | rfl | rfl | rfl | rfl | rfl | rfl |
      rfl | rfl := hi <;> rfl
  exact exec_illegal_faults (hill.trans (privileged_outside hm))

/-! ## PRI_RET -/

/-- Settles O18: nothing stops a return in HM. -/
theorem priRetReturns : Obligations.PriRetReturns := fun _ _ hm ha =>
  ⟨atDecode_privileged hm ha _, atDecode_privileged hm ha _⟩

/-! ## SYS_CALL -/

section
variable {s : State} {fn : BitVec 25}

/-- Bits [7:6] of a function code are its quarter of the 256 codes (R382). -/
theorem codeQuarter_toNat (fn : BitVec 25) : (fn.extractLsb' 6 2).toNat = fn.toNat % 256 / 64 := by
  simp only [BitVec.extractLsb'_toNat, Nat.shiftRight_eq_div_pow]
  omega

theorem codeQuarter_eq (fn : BitVec 25) (q : BitVec 2) : fn.extractLsb' 6 2 = q ↔ fn.toNat % 256 / 64 = q.toNat := by
  rw [← codeQuarter_toNat, BitVec.toNat_inj]

/-- The codes a mode outside HM may call, as the ranges of R382. -/
theorem legalLow_iff (fn : BitVec 25) {m : Mode} (hm : m ≠ .hm) :
    let user := 0x80 ≤ fn.toNat % 256 ∧ fn.toNat % 256 ≤ 0xBF
    let kern := fn.toNat % 256 ≤ 0x3F
    let virt := 0x40 ≤ fn.toNat % 256 ∧ fn.toNat % 256 ≤ 0x7F
    legalLow fn m = true ↔
      (m = .um ∧ user) ∨ (m = .km ∧ (user ∨ kern)) ∨ (m = .vm ∧ (user ∨ kern ∨ virt)) := by
  have hlow : (fn.extractLsb' 0 8).toNat = fn.toNat % 256 := by simp
  cases m with
  | hm => exact absurd rfl hm
  | vm => simp only [legalLow, hlow, decide_eq_true_eq, reduceCtorEq, false_and, true_and, false_or]; omega
  | km =>
    simp only [legalLow, Bool.or_eq_true, beq_iff_eq, codeQuarter_eq, reduceCtorEq, false_and, true_and, false_or,
      or_false, BitVec.reduceToNat]
    omega
  | um =>
    simp only [legalLow, beq_iff_eq, codeQuarter_eq, reduceCtorEq, false_and, true_and, or_false, BitVec.reduceToNat]
    omega

theorem codeHigh_zero (fn : BitVec 25) : fn >>> 8 = 0 ↔ fn.toNat < 256 := by
  rw [← BitVec.toNat_inj, BitVec.toNat_ushiftRight, Nat.shiftRight_eq_div_pow]
  exact Nat.div_eq_zero_iff_lt (by decide)

/-- A call is legal when its code is one of 256 and allowed to the mode (R382). -/
theorem sysIllegal_eq (s : State) (fn : BitVec 25) :
    s.sysIllegal fn = if fn.toNat < 256 ∧ legalLow fn s.mode = true then none else some false := by
  simp only [State.sysIllegal, Bool.and_eq_true, beq_iff_eq, codeHigh_zero]

/-- A legal call enters HM; in HM it is null (R382, R385). -/
theorem execSys_run (ha : s.iaMatch = false) (hf : fn.toNat < 256) (hl : legalLow fn s.mode = true) (t : State) :
    s.execSys fn t = .next (if s.mode = .hm then s.advance else t) := by
  rw [State.execSys, sysIllegal_eq, if_pos ⟨hf, hl⟩]
  exact atDecode_run (passes_int ha) _

theorem enterSysCallB_plain (hp : s.plat.sysCallBRecordsPc = false) : s.enterSysCallB fn = s.enterSysCall fn :=
  if_neg (Bool.eq_false_iff.mp hp)

theorem enterSysCallB_records (hp : s.plat.sysCallBRecordsPc = true) :
    s.enterSysCallB fn =
      { s.enterSysCall fn with ibox := { s.ibox with excPc := sext53 s.pc } } := if_pos hp

end

/-- Settles O16: a legal call outside HM enters, in HM it advances, and an illegal one raises OPCDEC. -/
theorem sysCallEffect : Obligations.SysCallEffect := by
  intro s fn user kern virt allowed entered
  have hallow (hm : s.mode ≠ .hm) : legalLow fn s.mode = true ↔ allowed := legalLow_iff fn hm
  have hnot (h : allowed) : s.mode ≠ .hm := by
    obtain ⟨hm, -⟩ | ⟨hm, -⟩ | ⟨hm, -⟩ := h <;> rw [hm] <;> decide
  have enters (ha : s.iaMatch = false) (hf : fn.toNat < 256) (h : allowed) (t : State) :
      s.execSys fn t = .next t := by
    rw [execSys_run ha hf ((hallow (hnot h)).mpr h), if_neg (hnot h)]
  refine ⟨fun ha hf h => ⟨enters ha hf h _, fun hp => ?plain, fun hp => ?records⟩,
    fun i hi => ⟨fun ha hf hm => ?null, fun h => ?illegal⟩⟩
  case plain => exact (enters ha hf h _).trans (by rw [enterSysCallB_plain hp]; rfl)
  case records => exact (enters ha hf h _).trans (by rw [enterSysCallB_records hp]; rfl)
  case null =>
    have hnull (t : State) : s.execSys fn t = .next s.advance := by
      rw [execSys_run ha hf (by rw [hm]; rfl), if_pos hm]
    simp only [List.mem_cons, List.not_mem_nil, or_false] at hi
    obtain rfl | rfl := hi <;> exact hnull _
  case illegal =>
    have hill : s.sysIllegal fn = some false := by
      rw [sysIllegal_eq, if_neg]
      rintro ⟨hf, hl⟩
      obtain hf' | ⟨hm, hn⟩ := h
      · omega
      · exact hn ((hallow hm).mp hl)
    simp only [List.mem_cons, List.not_mem_nil, or_false] at hi
    obtain rfl | rfl := hi <;> exact exec_illegal_faults hill

/-! ## The entry of a function code -/

section
variable (base : Word) (off : BitVec 16)

/-- An entry is the base's bits [47:16] between zeros and an offset (R592). -/
theorem entryAddr_zeros : (entryAddr base off).extractLsb' 48 16 = (0 : BitVec 16) :=
  (BitVec.extractLsb'_append_eq_of_le (by omega)).trans BitVec.extractLsb'_append_eq_left

theorem entryAddr_base : (entryAddr base off).extractLsb' 16 32 = (base.extractLsb' 16 32 : BitVec 32) :=
  (BitVec.extractLsb'_append_eq_of_le (by omega)).trans BitVec.extractLsb'_append_eq_right

theorem entryAddr_offset {lo len : Nat} (h : lo + len ≤ 16) :
    (entryAddr base off).extractLsb' lo len = off.extractLsb' lo len := BitVec.extractLsb'_append_eq_of_add_le h

theorem entryAddr_bit {k : Nat} (h : k < 16) : (entryAddr base off).getLsbD k = off.getLsbD k := by
  rw [entryAddr, BitVec.getLsbD_append, if_pos h]

variable (level : BitVec 2) (code : BitVec 6)

/-- The offset of a function code: a zero bit, its level, its six low bits, and seven zeros (R383). -/
def sysOffset : BitVec 16 := (0 : BitVec 1) ++ level ++ code ++ (0 : BitVec 7)

theorem sysEntry_eq (fn : BitVec 25) :
    sysEntry base fn = entryAddr base (sysOffset (sysLevel fn) (fn.extractLsb' 0 6)) := rfl

theorem sysOffset_top : (sysOffset level code).getLsbD 15 = false := by
  rw [sysOffset, BitVec.getLsbD_append, BitVec.getLsbD_append, BitVec.getLsbD_append]
  rfl

theorem sysOffset_level : (sysOffset level code).extractLsb' 13 2 = level :=
  (BitVec.extractLsb'_append_eq_of_le (by omega)).trans <|
    (BitVec.extractLsb'_append_eq_of_le (by omega)).trans BitVec.extractLsb'_append_eq_right

theorem sysOffset_code : (sysOffset level code).extractLsb' 7 6 = code :=
  (BitVec.extractLsb'_append_eq_of_le (by omega)).trans BitVec.extractLsb'_append_eq_right

theorem sysOffset_low {lo len : Nat} (h : lo + len ≤ 7) : (sysOffset level code).extractLsb' lo len = 0 :=
  (BitVec.extractLsb'_append_eq_of_add_le h).trans BitVec.extractLsb'_zero

end

/-- Settles O15: the fields of an entry, and those of the offset of a code. -/
theorem sysCallEntryAddress : Obligations.SysCallEntryAddress := by
  intro base fn _ e
  have entry : e = entryAddr base (sysOffset (sysLevel fn) (fn.extractLsb' 0 6)) := sysEntry_eq base fn
  have offset {lo len : Nat} (h : lo + len ≤ 16) :
      e.extractLsb' lo len = (sysOffset (sysLevel fn) (fn.extractLsb' 0 6)).extractLsb' lo len :=
    entry ▸ entryAddr_offset base _ h
  have level : e.extractLsb' 13 2 = sysLevel fn := (offset (by omega)).trans (sysOffset_level _ _)
  refine ⟨entryAddr_zeros base _, entryAddr_base base _, ?top, fun h => ?user, fun h => ?kern, fun h => ?virt,
    ?code, ?low, ?mode⟩
  case top => exact entry ▸ (entryAddr_bit base _ (by omega)).trans (sysOffset_top _ _)
  case user => rw [level, sysLevel, h]; rfl
  case kern => rw [level, sysLevel, h]; rfl
  case virt => rw [level, sysLevel, h]; rfl
  case code => exact (offset (by omega)).trans (sysOffset_code _ _)
  case low => exact (offset (by omega)).trans (sysOffset_low _ _ (by omega))
  case mode => exact (offset (by omega)).trans (sysOffset_low _ _ (by omega))

end Sys2Proof.Machine
end

section
/-! The privileged loads, stores and atomics in HM, and the atomics of every mode, where their access is ready. -/

namespace Sys2Proof.Machine

/-! ## Privileged accesses -/

section
variable {s : State} {pa : PAddr}

/-- The datum of a load of `n` bytes as R[ra] takes it: a word sign-extended (R391, R490). -/
theorem extendBySize_datum (n : Nat) (v : Vec) : extendBySize n (v.extractLsb' 0 64) =
    if n = 4 then (v.extractLsb' 0 32).signExtend 64 else v.extractLsb' 0 64 := by
  rw [extendBySize, sextW, BitVec.extractLsb'_extractLsb'_of_le (by omega)]

/-- A privileged load in HM whose access is ready (R391, R392). -/
theorem execPriLoad_run (hm : s.mode = .hm) (ha : s.iaMatch = false) {ra : Reg} (h31 : ra ≠ 31) {q : MemReq} {n : Nat}
    (hr : s.ready q pa) : s.execPriLoad ra q n =
      let r := s.loadPhys pa n (q.cls == .nonCache)
      .next (r.2.writeReg ra
        (if n = 4 then (r.1.extractLsb' 0 32).signExtend 64 else r.1.extractLsb' 0 64)).advance := by
  rw [State.execPriLoad, atDecode_privileged hm ha, if_neg h31, State.execLoad, check_of_ready hr]
  simp only [Checked.andThen, extendBySize_datum]

/-- A privileged store in HM whose access is ready (R393, R399). -/
theorem execPriStore_run (hm : s.mode = .hm) (ha : s.iaMatch = false) {q : MemReq} {n : Nat} {v : Word}
    (hr : s.ready q pa) :
    s.execPriStore q n v = .next (s.storePhys pa n (v.setWidth 256) (q.cls == .nonCache)).advance := by
  rw [State.execPriStore, atDecode_privileged hm ha, State.execStore, check_of_ready hr]
  rfl

/-- An atomic whose access is ready (R490 to R493). -/
theorem execAtomic_run (ha : s.iaMatch = false) {ra : Reg} {va : Word} {n : Nat} {op : AtomicOp}
    (hr : s.ready (s.atomicReq va n) pa) :
    s.execAtomic ra va n op = .next (s.fetchAndOp s.pc ra pa n op s.incoEnabled) := by
  rw [State.execAtomic, atDecode_run (passes_int ha), check_of_ready hr]
  rfl

/-- A privileged atomic in HM whose access is ready (R396 to R398). -/
theorem execPriAtomic_run (hm : s.mode = .hm) (ha : s.iaMatch = false) {ra rb : Reg} {d : BitVec 12} {n : Nat}
    {op : AtomicOp} (hr : s.ready (s.atomicReq (s.priAddr rb d n) n).physical pa) :
    s.execPriAtomic ra rb d n op = .next (s.fetchAndOp s.pc ra pa n op false) := by
  rw [State.execPriAtomic, atDecode_privileged hm ha, check_of_ready hr]
  rfl

/-- An atomic that does not trap: the old datum in the register, the new one at the address (R490). -/
theorem fetchAndOp_quiet {pc : Word} {ra : Reg} {n : Nat} {op : AtomicOp} {inco : Bool}
    (h : (inco && op.overflows n ((s.loadPhys pa n false).1.extractLsb' 0 64)) = false) :
    s.fetchAndOp pc ra pa n op inco =
      (((s.loadPhys pa n false).2.atomicStore pa n
        ((op.new ((s.loadPhys pa n false).1.extractLsb' 0 64)).setWidth 256)).writeReg ra
          (extendBySize n ((s.loadPhys pa n false).1.extractLsb' 0 64))).advance := by
  rw [State.fetchAndOp, h]
  rfl

theorem incoEnabled_iff : s.incoEnabled = true ↔ s.ebox.icr.getLsbD 0 = false ∧ s.dbox.dcCtl.getLsbD 10 = true := by
  simp [State.incoEnabled]

end

/-- Settles O44: past the checks of its request each form loads or stores, and advances. -/
theorem privilegedAccesses : Obligations.PrivilegedAccesses := by
  intro s pa ra rb d ha hm e a v pm l st
  refine ⟨fun p hp h31 hr => ?load, fun p hp hr => ?store⟩
  case load =>
    simp only [List.mem_cons, List.not_mem_nil, or_false] at hp
    obtain rfl | rfl | rfl | rfl | rfl | rfl := hp <;> exact execPriLoad_run hm ha h31 hr
  case store =>
    simp only [List.mem_cons, List.not_mem_nil, or_false] at hp
    obtain rfl | rfl | rfl | rfl := hp <;> exact execPriStore_run hm ha hr

/-- Settles O38: an atomic is quiet where its trap is off or its datum does not overflow, a privileged one always. -/
theorem atomics : Obligations.Atomics := by
  intro s pa ra rb d ha e done traps old
  refine ⟨fun p hp hr hno => ?plain, fun p hp hm hr => ?privileged⟩
  case plain =>
    have quiet {op : AtomicOp} (hr : s.ready (s.atomicReq e p.2.1) pa)
        (hov : op.overflows p.2.1 (old p.2.1) = true → p.2.2.2) :
        s.execAtomic ra e p.2.1 op = done p.2.1 op.new := by
      rw [execAtomic_run ha hr, fetchAndOp_quiet]
      · rfl
      · rw [Bool.eq_false_iff, Ne, Bool.and_eq_true, incoEnabled_iff]
        exact fun ⟨ht, ho⟩ => hno ⟨ht, hov ho⟩
    simp only [List.mem_cons, List.not_mem_nil, or_false] at hp
    obtain rfl | rfl | rfl | rfl | rfl | rfl := hp
    · exact quiet (op := .inc) hr eq_of_beq
    · exact quiet (op := .inc) hr eq_of_beq
    · exact quiet (op := .dec) hr eq_of_beq
    · exact quiet (op := .dec) hr eq_of_beq
    · exact quiet (op := .set) hr Bool.false_ne_true
    · exact quiet (op := .set) hr Bool.false_ne_true
  case privileged =>
    have quiet {op : AtomicOp} {n : Nat} (hr : s.ready (s.atomicReq (s.priAddr rb d n) n).physical pa) :
        s.execPriAtomic ra rb d n op = done n op.new := by
      rw [execPriAtomic_run hm ha hr, fetchAndOp_quiet (Bool.false_and _)]
      rfl
    simp only [List.mem_cons, List.not_mem_nil, or_false] at hp
    obtain rfl | rfl | rfl | rfl | rfl | rfl := hp
    · exact quiet (op := .inc) hr
    · exact quiet (op := .inc) hr
    · exact quiet (op := .dec) hr
    · exact quiet (op := .dec) hr
    · exact quiet (op := .set) hr
    · exact quiet (op := .set) hr

end Sys2Proof.Machine
end

section
/-! Instruction boundaries at which no instruction runs, an interrupt being taken or a halted core waiting; HALT, and the
writes of the exception control in FPCR. -/

namespace Sys2Proof.Machine

/-! ## What passes with time -/

/-- Time alone has passed from `s` to `t`: of what a program can read, only TC, the event counters, the error window, the
timer and the requests they raise may differ (R410, R671, R690, R762). -/
structure State.SameButTime (s t : State) : Prop where
  pc : t.pc = s.pc
  coreState : t.coreState = s.coreState
  gpr : t.gpr = s.gpr
  sr : t.sr = s.sr
  vr : t.vr = s.vr
  fpcr : t.fpcr = s.fpcr
  mem : t.mem = s.mem
  lock : t.lock = s.lock
  dbox : t.dbox = s.dbox
  sbox : t.sbox = s.sbox
  ebox : t.ebox = { s.ebox with tc := t.ebox.tc }
  ibox : t.ibox = { s.ibox with
    pc0Cr := t.ibox.pc0Cr, pc1Cr := t.ibox.pc1Cr, hserrCnt := t.ibox.hserrCnt, timerCtl := t.ibox.timerCtl
    pending := t.ibox.pending }

theorem sameButTime_idle (s : State) (m : BitVec 2) : s.SameButTime (s.idle m) := by
  have hw := withoutTime_idle s m
  generalize s.idle m = t at hw
  have field {α : Type} (f : State → α) : f t.withoutTime = f s.withoutTime := congrArg f hw
  exact
    { pc := field State.pc, coreState := field State.coreState, gpr := field State.gpr, sr := field State.sr
      vr := field State.vr, fpcr := field State.fpcr, mem := field State.mem, lock := field State.lock
      dbox := field State.dbox, sbox := field State.sbox
      ebox := field fun u => { u.ebox with tc := t.ebox.tc }
      ibox := field fun u => { u.ibox with
        pc0Cr := t.ibox.pc0Cr, pc1Cr := t.ibox.pc1Cr, hserrCnt := t.ibox.hserrCnt, timerCtl := t.ibox.timerCtl
        pending := t.ibox.pending } }

/-! ## The boundary -/

section
variable {s : State}

theorem step_at_boundary (hi : s.inputs = []) (hc : s.coreState ≠ .asleep) : step s = boundary s := by
  simp only [step, stepInOrder, hi, hc, if_false]

theorem reportLate_none (hl : s.lateErrors = []) : s.reportLate = s := if_pos (List.isEmpty_iff.mpr hl)

/-- An interrupt that is recognised is entered (R640). -/
theorem boundary_interrupt (hl : s.lateErrors = []) {e : Exc} (h : s.recognised = some e) :
    boundary s = .next ((s.enterInterrupt e).idle s.modeBits) := by
  simp only [boundary, reportLate_none hl, h]

/-- A halted core waits (R410). -/
theorem boundary_halted (hl : s.lateErrors = []) (h : s.recognised = none) (hc : s.coreState = .halted) :
    boundary s = .next (({ s with lastExc := none } : State).idle s.modeBits) := by
  simp only [boundary, reportLate_none hl, h, hc, if_true]

/-! ## What is recognised -/

/-- A bit cleared leaves the others. -/
theorem getLsbD_clear_iff {w : Nat} (x : BitVec w) (k n : Nat) :
    (x &&& ~~~((1 : BitVec w) <<< k)).getLsbD n = true ↔ n ≠ k ∧ x.getLsbD n = true := by
  have hlt : x.getLsbD n = true → n < w := BitVec.lt_of_getLsbD
  rw [BitVec.ofNat_eq_ofNat, ← BitVec.twoPow_eq, BitVec.getLsbD_and, BitVec.getLsbD_not, BitVec.getLsbD_twoPow]
  grind

theorem ne_zero_iff_getLsbD {w : Nat} (x : BitVec w) : x ≠ 0 ↔ ∃ n, x.getLsbD n = true := by
  rw [Ne, BitVec.ofNat_eq_ofNat, BitVec.zero_iff_eq_false]
  simp only [not_forall, Bool.not_eq_false]

/-- A request is live where it is pending and enabled (R640). -/
theorem live_iff (n : Nat) :
    s.live.getLsbD n = true ↔ s.ibox.pending.getLsbD n = true ∧ s.ibox.ier.getLsbD n = true := by
  rw [State.live, BitVec.getLsbD_and, Bool.and_eq_true]

/-- R640's req1 is a live request at neither of the two positions that have classes of their own (D29). -/
theorem request1_iff :
    s.request1 = true ↔ ∃ n, n ≠ s.mchkVec.toNat ∧ n ≠ s.sleepVec.toNat ∧ s.live.getLsbD n = true := by
  rw [State.request1, bne_iff_ne, ne_zero_iff_getLsbD]
  simp only [getLsbD_clear_iff]

theorem request0_iff : s.request0 = true ↔
    (s.ibox.iiEr.getLsbD 0 = true ∧ s.ibox.ii0 ≠ 0) ∨ (s.ibox.iiEr.getLsbD 1 = true ∧ s.ibox.ii1 ≠ 0) ∨
      (s.ibox.iiEr.getLsbD 2 = true ∧ 0 < s.ibox.iiMail.toInt) := by
  simp only [State.request0, Bool.or_eq_true, Bool.and_eq_true, bne_iff_ne, decide_eq_true_eq, or_assoc]

theorem recognised_hm (hm : s.mode = .hm) : s.recognised = none := if_pos hm

/-- Outside HM the first class that is requested is recognised, by the order of R642. -/
theorem recognised_outside (hm : s.mode ≠ .hm) : s.recognised =
    if s.live.getLsbD s.mchkVec.toNat then some .mchk
    else if s.live.getLsbD s.sleepVec.toNat then some .sleep
    else if s.request1 then some .interrupt1
    else if s.request0 then some .interrupt0
    else none := if_neg hm

/-! ## The interrupt taken -/

/-- `t` is entered at offset `off` by an interrupt at the boundary before the instruction at the pc of `s`: a halted core
runs again, and registers, memory and enables stay (R410, R590, R641; D24). -/
def State.interruptedTo (s t : State) (off : BitVec 16) : Prop :=
  t.pc = entryAddr s.ibox.priBase off ∧ t.ibox.excPc = sext53 s.pc ∧ t.coreState = .running ∧
    t.lock = { s.lock with valid := false, flag := false } ∧ t.gpr = s.gpr ∧ t.sr = s.sr ∧ t.vr = s.vr ∧
    t.fpcr = s.fpcr ∧ t.mem = s.mem ∧ t.ibox.ier = s.ibox.ier ∧ t.ibox.iiEr = s.ibox.iiEr

/-- What is recognised is taken by the step. -/
theorem step_interrupt (hi : s.inputs = []) (hl : s.lateErrors = []) (hc : s.coreState ≠ .asleep) {e : Exc}
    (h : s.recognised = some e) : ∃ t, step s = .next t ∧ s.interruptedTo t e.offset := by
  have ht := sameButTime_idle (s.enterInterrupt e) s.modeBits
  have hexc := congrArg IBox.excPc ht.ibox
  have hier := congrArg IBox.ier ht.ibox
  have hii := congrArg IBox.iiEr ht.ibox
  exact ⟨_, (step_at_boundary hi hc).trans (boundary_interrupt hl h), ht.pc, hexc, ht.coreState, ht.lock, ht.gpr, ht.sr,
    ht.vr, ht.fpcr, ht.mem, hier, hii⟩

end

/-- Settles O50: the class that is recognised is the first one requested, and its entry is taken. -/
theorem interruptTaken : Obligations.InterruptTaken := by
  refine fun s => ⟨recognised_hm, fun hm hi hl hc => ?_⟩
  intro live m l one zero entered
  have live_bit (n : Nat) : live n ↔ s.live.getLsbD n = true := (live_iff n).symm
  have one_bit : one ↔ s.request1 = true := by
    simp only [request1_iff, live_iff]
    rfl
  have zero_bit : zero ↔ s.request0 = true := request0_iff.symm
  have first := recognised_outside hm
  have taken {e : Exc} (h : s.recognised = some e) : entered e.offset := step_interrupt hi hl hc h
  rw [live_bit, live_bit, one_bit, zero_bit]
  refine ⟨fun h => taken (e := .mchk) ?_, fun h h' => taken (e := .sleep) ?_, fun h h' h1 => taken (e := .interrupt1) ?_,
    fun h h' h1 h0 => taken (e := .interrupt0) ?_, fun h h' h1 h0 => ?_⟩
  · rw [first, if_pos h]
  · rw [first, if_neg h, if_pos h']
  · rw [first, if_neg h, if_neg h', if_pos h1]
  · rw [first, if_neg h, if_neg h', if_neg h1, if_pos h0]
  · rw [first, if_neg h, if_neg h', if_neg h1, if_neg h0]

/-! ## HALT -/

section
variable {s : State}

theorem haltIllegal_outside (hm : s.mode ≠ .hm) : s.haltIllegal = none := if_neg fun h => hm h.1

theorem haltIllegal_null (hp : s.plat.haltInHmNop = true) : s.haltIllegal = none :=
  if_neg fun h => Bool.false_ne_true (h.2.symm.trans hp)

theorem haltIllegal_opcdec (hm : s.mode = .hm) (hp : s.plat.haltInHmNop = false) : s.haltIllegal = some false :=
  if_pos ⟨hm, hp⟩

theorem exec_halt (hill : s.haltIllegal = none) (ha : s.iaMatch = false) :
    exec .halt s = .next (if s.mode = .hm then s.advance else { s with coreState := .halted }.advance) := by
  have run : exec .halt s = s.atDecode s.haltIllegal .int
    (.next (if s.mode = .hm then s.advance else { s with coreState := .halted }.advance)) := rfl
  rw [run, hill, atDecode_run (passes_int ha)]

end

/-- Settles O24: HALT outside HM, in HM by the platform's parameter, and the core that it has halted. -/
theorem haltEffect : Obligations.HaltEffect := by
  intro s
  refine ⟨fun ha hm => ?outside, fun hm hp => exec_illegal_faults (haltIllegal_opcdec hm hp), fun ha hm hp => ?null,
    fun hi hl hc hr => ?waits⟩
  case outside =>
    rw [exec_halt (haltIllegal_outside hm) ha, if_neg hm]
    rfl
  case null =>
    rw [exec_halt (haltIllegal_null hp) ha, if_pos hm]
    rfl
  case waits =>
    have awake : s.coreState ≠ .asleep := by
      rw [hc]
      decide
    have ht := sameButTime_idle ({ s with lastExc := none } : State) s.modeBits
    exact ⟨_, (step_at_boundary hi awake).trans (boundary_halted hl hr hc), ht.pc, ht.coreState.trans hc, ht.gpr, ht.sr,
      ht.vr, ht.fpcr, ht.mem, ht.lock, ht.dbox, ht.sbox, ht.ebox, ht.ibox⟩

/-! ## SETFPEC0 to SETFPEC3 -/

/-- Settles O25: each is one write of FPCR, and an instruction of the floating-point unit where that is off. -/
theorem setExcCtl : Obligations.SetExcCtl := by
  intro s p hp
  have which : s.illegal p.1 = none ∧ Instr.unit p.1 = .fp ∧
      ∃ n : BitVec 2, n.setWidth 64 = p.2 ∧ exec p.1 s = s.execSetfpec n := by
    simp only [List.mem_cons, List.not_mem_nil, or_false] at hp
    obtain rfl | rfl | rfl | rfl := hp
    · exact ⟨rfl, rfl, 0, rfl, rfl⟩
    · exact ⟨rfl, rfl, 1, rfl, rfl⟩
    · exact ⟨rfl, rfl, 2, rfl, rfl⟩
    · exact ⟨rfl, rfl, 3, rfl, rfl⟩
  obtain ⟨hill, hunit, n, hn, hrun⟩ := which
  refine ⟨fun hpass => ?_, fun ha hoff => (decodeFaults.1 s p.1 hill).2 ha (.inl ⟨.inl hunit, hoff⟩)⟩
  rw [hrun, State.execSetfpec, atDecode_run hpass, ← hn]
  rfl

end Sys2Proof.Machine
end

section
/-! What accesses and their checks do to memory where the data cache is clean: a read changes none, a write its own bytes
only. -/

namespace Sys2Proof.Machine

/-! ## Accesses in a clean data cache -/

section
variable {s t : State} {pa : PAddr} {n : Nat}

theorem mem_of_space (h : t.space = s.space) : t.mem = s.mem := congrArg Prod.snd h

theorem cleanCache_of_kept (h : t.kept = s.kept) (hc : s.cleanCache) : t.cleanCache := by
  have h' := keptByTime_of_kept h
  simp only [State.keptByTime, Prod.mk.injEq] at h'
  obtain ⟨-, ⟨-, -, -, -, he, -⟩, ⟨-, -, -, -, -, -, -, hd⟩, -⟩ := h'
  rwa [State.cleanCache, he, hd]

theorem ioLoad_cells (s : State) (pa : PAddr) (n : Nat) (r : Ior) :
    (s.ioLoad pa n r).2.mem = s.mem ∧ (s.ioLoad pa n r).2.dcErrors = s.dcErrors := by
  unfold State.ioLoad
  cases r with
  | mailBox i => dsimp only; split <;> exact ⟨rfl, rfl⟩
  | _ => exact ⟨rfl, rfl⟩

/-- In a clean data cache a read changes no memory and brings no error. -/
theorem loadPhys_cells (hc : s.cleanCache) (pa : PAddr) (n : Nat) (nc : Bool) :
    (s.loadPhys pa n nc).2.mem = s.mem ∧ (s.loadPhys pa n nc).2.dcErrors = s.dcErrors := by
  have hf := forcedKinds_none hc
  have hf' : s.settle.forcedKinds = [] := hf
  unfold State.loadPhys
  split
  · split
    · unfold State.ioAnswer
      split <;> exact ioLoad_cells s pa n _
    · exact ⟨rfl, rfl⟩
  · simp only [State.memLoad, replaceLines_none hc.1, lineLeaves_none hc.1, dcBad_none hc.1, forceFill_none hf,
      forceFill_none hf', Bool.false_eq_true, if_false]
    split
    · exact ⟨rfl, rfl⟩
    · split <;> exact ⟨rfl, rfl⟩

theorem cleanCache_loadPhys (hc : s.cleanCache) (pa : PAddr) (n : Nat) (nc : Bool) :
    (s.loadPhys pa n nc).2.cleanCache := by
  have hd : (s.loadPhys pa n nc).2.dbox.dcCtl = s.dbox.dcCtl :=
    show (s.loadPhys pa n nc).2.withoutMemory.dbox.dcCtl = s.withoutMemory.dbox.dcCtl by rw [withoutMemory_loadPhys]
  rwa [State.cleanCache, (loadPhys_cells hc pa n nc).2, hd]

/-- Memory `m'` differs from `m` in no byte outside the `n` from `a`. -/
def ChangedWithin (m m' : List Host.Cell) (a n : Nat) : Prop :=
  ∀ b, memRead m' b ≠ memRead m b → a ≤ b ∧ b < a + n

theorem changedWithin_refl (m : List Host.Cell) (a n : Nat) : ChangedWithin m m a n := fun _ h => absurd rfl h

theorem changedWithin_writeBytes {m : List Host.Cell} {a n : Nat} (v : Vec) (hw : Memory.wf m = true)
    (h : a + n ≤ 2 ^ 46) : ChangedWithin m (writeBytes m a n v) a n := by
  intro b hb
  by_contra hout
  rw [memRead_writeBytes v hw h, if_neg hout] at hb
  exact hb rfl

/-- In a clean data cache a write changes its own bytes only: an I/O register, and a place where nothing answers, has none
in memory. -/
theorem changedWithin_storePhys (hok : s.memoryOk) (hc : s.cleanCache) (pa : PAddr) (n : Nat) (v : Vec) (nc : Bool) :
    ChangedWithin s.mem (s.storePhys pa n v nc).mem (loc pa) n := by
  have same {m : List Host.Cell} (h : m = s.mem) : ChangedWithin s.mem m (loc pa) n := h ▸ changedWithin_refl _ _ _
  unfold State.storePhys
  split
  · exact same rfl
  · split
    · split
      · split
        · exact same (mem_ioStore s pa n _ _)
        · exact same rfl
      · exact same rfl
    · split
      · obtain hm | ⟨w, hm⟩ := memStore_mem hc pa n v (isNc nc pa)
        · exact same hm
        · rw [hm]
          exact changedWithin_writeBytes w hok.2 (memExists_le hok ‹_›)
      · exact same rfl

/-- The same of an atomic, whose checks have found that its bytes exist. -/
theorem changedWithin_fetchAndOp (hok : s.memoryOk) (hc : s.cleanCache) (hm : s.memExists pa n = true) (pc : Word)
    (ra : Reg) (op : AtomicOp) (inco : Bool) :
    ChangedWithin s.mem (s.fetchAndOp pc ra pa n op inco).mem (loc pa) n := by
  have hload := (loadPhys_cells hc pa n false).1
  obtain ⟨w, hw⟩ := atomicStore_mem (cleanCache_loadPhys hc pa n false) pa n
    ((op.new ((s.loadPhys pa n false).1.extractLsb' 0 64)).setWidth 256)
  have hmem : (s.fetchAndOp pc ra pa n op inco).mem = writeBytes s.mem (loc pa) n w := by
    rw [← hload, ← hw]
    unfold State.fetchAndOp
    dsimp only
    split <;> exact mem_of_space (space_writeReg _ ra _)
  rw [hmem]
  exact changedWithin_writeBytes w hok.2 (memExists_le hok hm)

/-- The line of a cache control instruction leaves or comes with no error, so memory stays. -/
theorem mem_lineEffect (hc : s.cleanCache) (f : LineRule) (pa : PAddr) : (s.lineEffect f pa).mem = s.mem := by
  simp only [State.lineEffect, flushLine_none hc.1, fillLine_none hc.1, ite_self, apply_ite State.mem,
    State.lineClean_mem]

/-! ## Checks -/

/-- An access that passes its checks has been translated, and reaches the block of the address that gives. -/
theorem check_ok {q : MemReq} (h : s.check q = .ok pa t) :
    ∃ p, s.translate q = .ok p s ∧ pa = alignDown p q.block ∧ t.kept = s.kept := by
  unfold State.check at h
  split at h
  · cases h
  · obtain ⟨p, hp⟩ | ⟨u, hp, -⟩ | hp := translate_cases s q <;> rw [hp] at h
    · obtain ⟨u, hu, hk⟩ | ⟨u, hu, -⟩ := accessCheck_cases s q p
      · cases hu.symm.trans h
        exact ⟨p, hp, rfl, hk⟩
      · cases hu.symm.trans h
    · cases h
    · cases h

theorem translate_ok_iff {q : MemReq} : s.translate q = .ok pa s ↔
    if q.bypasses then pa = q.va.setWidth 48 else s.dtbLookup q.pm q.reads q.writes q.va = .pa pa := by
  unfold State.translate
  split
  · simp [eq_comm]
  · cases s.dtbLookup q.pm q.reads q.writes q.va with
    | miss => dsimp only; split <;> simp
    | _ => simp

/-- Translation does not depend on how many free values have been drawn. -/
theorem State.SameButDraws.translate_ok (h : s.SameButDraws t) {q : MemReq} (ht : t.translate q = .ok pa t) :
    s.translate q = .ok pa s := by
  rw [translate_ok_iff] at ht ⊢
  rwa [← h.dtbLookup]

theorem evictAnswer_keeps (s : State) (q : MemReq) (pa : PAddr) : (s.evictAnswer q pa).Keeps s pa := by
  unfold State.evictAnswer
  split
  · exact (kept_raiseDataPhys _ _ _ _ _).trans (kept_scError s 14)
  · split
    · exact armedError_keeps s q pa
    · exact ⟨rfl, rfl⟩

end

end Sys2Proof.Machine
end

section
/-! That every instruction changes no byte of memory but those of the access that `dataReq` names: each shared shape once,
then each instruction by its shape. -/

namespace Sys2Proof.Machine

/-! ## The bytes that an instruction stores -/

/-- The bytes that the access of `o` covers, if it writes. -/
def State.covers (s : State) (o : Option (Pipe × MemReq)) (a : Nat) : Prop :=
  ∃ p q pa, o = some (p, q) ∧ q.writes = true ∧ s.translate q = .ok pa s ∧
    loc (alignDown pa q.block) ≤ a ∧ a < loc (alignDown pa q.block) + q.size

/-- The outcome `r` changes no byte of memory but those that the access of `o` covers. -/
def State.StoresOnly (s : State) (o : Option (Pipe × MemReq)) (r : Result) : Prop :=
  ∀ t, r = .next t → ∀ a, memRead t.mem a ≠ memRead s.mem a → s.covers o a

section
variable {s : State} {o : Option (Pipe × MemReq)} {p : Pipe} {q : MemReq} {n : Nat}

theorem storesOnly_next {t : State} (h : t.mem = s.mem) : s.StoresOnly o (.next t) := by
  rintro _ ⟨⟩ a ha
  rw [h] at ha
  exact absurd rfl ha

theorem storesOnly_fault (f : Fault) : s.StoresOnly o (.fault f) := fun _ ht => by cases ht

/-- A fault of the decode stage changes no memory. -/
theorem storesOnly_atDecode {ill : Option Bool} {r : Result} (h : s.StoresOnly o r) :
    s.StoresOnly o (s.atDecode ill p r) := by
  obtain ⟨b, -, hd⟩ | ⟨-, -, hd⟩ | ⟨-, -, -, hd⟩ | ⟨-, -, hd⟩ := atDecode_cases s ill p r <;> rw [hd]
  · exact storesOnly_next rfl
  · exact storesOnly_next rfl
  · exact storesOnly_next rfl
  · exact h

/-- An instruction that does not touch memory. -/
theorem storesOnly_same {ill : Option Bool} {t : State} (h : t.space = s.space) :
    s.StoresOnly o (s.atDecode ill p (.next t)) := storesOnly_atDecode (storesOnly_next (mem_of_space h))

theorem storesOnly_execNull : s.StoresOnly o s.execNull := storesOnly_same (space_advance s)

theorem storesOnly_orNull {c : Prop} [Decidable c] {r : Result} (h : s.StoresOnly o r) :
    s.StoresOnly o (if c then s.execNull else r) := by
  split
  · exact storesOnly_execNull
  · exact h

theorem storesOnly_orAdvance {c : Prop} [Decidable c] {r : Result} (h : s.StoresOnly o r) :
    s.StoresOnly o (if c then .next s.advance else r) := by
  split
  · exact storesOnly_next rfl
  · exact h

/-- A privileged instruction makes its access in HM only, and elsewhere does nothing but fault. -/
theorem storesOnly_inHm {r : Result} (h : s.StoresOnly (some (.int, q)) r) :
    s.StoresOnly (s.inHm q) (s.atDecode s.privileged .int r) := by
  by_cases hm : s.mode = .hm
  · rw [State.inHm, if_pos hm]
    exact storesOnly_atDecode h
  · rw [privileged_outside hm]
    exact storesOnly_next rfl

/-- A lock store makes its access in its place only, and elsewhere does nothing but fault. -/
theorem storesOnly_inPlace {r : Result} (h : s.StoresOnly (some (.int, q)) r) :
    s.StoresOnly (s.inPlace q) (s.atDecode s.lockStoreIllegal .int r) := by
  by_cases hi : s.lockStoreIllegal = none
  · rw [State.inPlace, if_pos hi]
    exact storesOnly_atDecode h
  · obtain ⟨b, hb⟩ := Option.ne_none_iff_exists'.mp hi
    rw [hb]
    exact storesOnly_next rfl

/-! ### Accesses -/

/-- An access whose effect changes no memory. -/
theorem storesOnly_andThen {c : Checked} {run : PAddr → State → State} (hk : c.KeepsSpace s)
    (h : ∀ pa t, c = .ok pa t → (run pa t).mem = t.mem) : s.StoresOnly o (c.andThen run) := by
  intro t ht
  obtain ⟨pa, u, rfl, rfl⟩ | rfl := andThen_next ht
  · exact storesOnly_next ((h pa u rfl).trans (mem_of_space hk)) _ rfl
  · exact storesOnly_next (mem_of_space hk) _ rfl

/-- A translated access that writes and changes only the bytes of its request. -/
theorem storesOnly_changed {t : State} {pa : PAddr} (hw : q.writes = true) (htr : s.translate q = .ok pa s)
    (h : ChangedWithin s.mem t.mem (loc (alignDown pa q.block)) q.size) : s.StoresOnly (some (p, q)) (.next t) := by
  rintro _ ⟨⟩ a ha
  exact ⟨p, q, pa, rfl, hw, htr, h a ha⟩

/-- An access whose effect changes only the bytes of its request, made in a state that differs in the count of free values
alone. -/
theorem storesOnly_check {u : State} {run : PAddr → State → State} (hu : s.SameButDraws u) (hw : q.writes = true)
    (h : ∀ pa t, u.check q = .ok pa t → t.kept = s.kept → ChangedWithin t.mem (run pa t).mem (loc pa) q.size) :
    s.StoresOnly (some (p, q)) ((u.check q).andThen run) := by
  have hkept : u.kept = s.kept := by
    obtain ⟨k, rfl⟩ := hu
    rfl
  intro t ht
  obtain ⟨pa, v, hc, rfl⟩ | hc := andThen_next ht
  · obtain ⟨pa₀, htr, rfl, hk⟩ := check_ok hc
    have hchanged := h _ v hc (hk.trans hkept)
    rw [mem_of_space (space_of_kept (hk.trans hkept))] at hchanged
    exact storesOnly_changed hw (hu.translate_ok htr) hchanged _ rfl
  · have hk := keepsSpace_check u q
    rw [hc] at hk
    exact storesOnly_next (mem_of_space (Eq.trans hk (space_of_kept hkept))) _ rfl

theorem storesOnly_execLoad {use : State → Vec → State} (hc : s.cleanCache)
    (h : ∀ t v, (use t v).space = t.space) : s.StoresOnly o (s.execLoad q n use) := by
  refine storesOnly_andThen (keepsSpace_check s q) fun pa t ht => ?_
  obtain ⟨-, -, -, hk⟩ := check_ok ht
  exact (mem_of_space (h _ _)).trans (loadPhys_cells (cleanCache_of_kept hk hc) pa n _).1

variable (hok : s.memoryOk) (hc : s.cleanCache)
include hok hc

theorem storesOnly_execStore {u : State} {v : Vec} (hu : s.SameButDraws u) (hw : q.writes = true) (hn : q.size = n) :
    s.StoresOnly (some (p, q)) (u.execStore q n v) := by
  subst hn
  exact storesOnly_check hu hw fun pa t _ hk =>
    changedWithin_storePhys (memoryOk_of_space (space_of_kept hk) hok) (cleanCache_of_kept hk hc) pa _ v _

theorem storesOnly_fetchAndOp {pc : Word} {ra : Reg} {op : AtomicOp} {inco : Bool} (hw : q.isAtomic = true)
    (hcls : q.cls = .atomic) (hn : q.size = n) :
    s.StoresOnly (some (p, q)) ((s.check q).andThen fun pa t => t.fetchAndOp pc ra pa n op inco) := by
  subst hn
  obtain ⟨hreads, hwrites⟩ : q.reads = true ∧ q.writes = true := Bool.and_eq_true_iff.mp hw
  refine storesOnly_check (sameButDraws_refl s) hwrites fun pa t ht hk => ?_
  have hplat : t.plat = s.plat := congrArg Prod.fst (space_of_kept hk)
  have hm : t.memExists pa q.size = true := by
    rw [State.memExists, hplat]
    exact memExists_of_check hcls hreads ht
  exact changedWithin_fetchAndOp (memoryOk_of_space (space_of_kept hk) hok) (cleanCache_of_kept hk hc) hm pc ra op inco

/-! ### Stores, atomics and locks -/

/-- A store of what an integer register holds. -/
theorem storesOnly_intStore {v : Vec} (hw : q.writes = true) (hn : q.size = n) :
    s.StoresOnly (some (.int, q)) (s.atDecode none .int (s.execStore q n v)) :=
  storesOnly_atDecode (storesOnly_execStore hok hc (sameButDraws_refl s) hw hn)

theorem storesOnly_execPriStore {v : Word} (hw : q.writes = true) (hn : q.size = n) :
    s.StoresOnly (s.inHm q) (s.execPriStore q n v) :=
  storesOnly_inHm (storesOnly_execStore hok hc (sameButDraws_refl s) hw hn)

theorem storesOnly_execFloatStore {fa : Reg} {va : Word} {cls : MemClass} {k : DataKind} {conv : Word → Word} :
    s.StoresOnly (some (.fp, s.storeReq va n cls (conv (s.useF fa k).1))) (s.execFloatStore fa va n cls k conv) := by
  unfold State.execFloatStore
  exact storesOnly_atDecode (storesOnly_execStore hok hc (sameButDraws_useF s fa k) rfl rfl)

theorem storesOnly_execVecStore {fa : Reg} {k : DataKind} {conv : Vec → Vec} (hw : q.writes = true) (hn : q.size = n) :
    s.StoresOnly (some (.simd, q.comparing n (conv (s.useV fa k).1))) (s.execVecStore fa q n k conv) := by
  unfold State.execVecStore
  exact storesOnly_atDecode (storesOnly_execStore hok hc (sameButDraws_useV s fa k) hw hn)

/-- A store wider than 8 bytes keeps its value match open (U13). -/
theorem storesOnly_wideStore {fa : Reg} {k : DataKind} {conv : Vec → Vec} (h8 : 8 < n) (hv : q.value = .free)
    (hw : q.writes = true) (hn : q.size = n) : s.StoresOnly (some (.simd, q)) (s.execVecStore fa q n k conv) := by
  have hq (v : Vec) : q.comparing n v = q := by rw [MemReq.comparing, if_neg (by omega), ← hv]
  have h := storesOnly_execVecStore hok hc (fa := fa) (k := k) (conv := conv) hw hn
  rwa [hq] at h

theorem storesOnly_execStoreLow {fa : Reg} {va : Word} {b align : Nat} {k : DataKind} {conv : Vec → Vec}
    (ho : o = some (.simd, s.lowReq va b align (conv (s.useV fa k).1))) :
    s.StoresOnly o (s.execStoreLow fa va b align k conv) := by
  subst ho
  unfold State.execStoreLow
  exact storesOnly_execVecStore hok hc rfl rfl

theorem storesOnly_execStoreHigh {fa : Reg} {va : Word} {b align : Nat} {k : DataKind} {conv : Vec → Vec}
    (ho : o = some (.simd, s.highReq va b align (conv (s.useV fa k).1))) :
    s.StoresOnly o (s.execStoreHigh fa va b align k conv) := by
  subst ho
  unfold State.execStoreHigh
  exact storesOnly_execVecStore hok hc (conv := fun m => conv m >>> (8 * (b - blockOffset va b))) rfl rfl

theorem storesOnly_execAtomic {ra : Reg} {va : Word} {op : AtomicOp} :
    s.StoresOnly (some (.int, s.atomicReq va n)) (s.execAtomic ra va n op) :=
  storesOnly_atDecode (storesOnly_fetchAndOp hok hc rfl rfl rfl)

theorem storesOnly_execPriAtomic {ra rb : Reg} {d : BitVec 12} {op : AtomicOp} :
    s.StoresOnly (s.inHm (s.atomicReq (s.priAddr rb d n) n).physical) (s.execPriAtomic ra rb d n op) :=
  storesOnly_inHm (storesOnly_fetchAndOp hok hc rfl rfl rfl)

/-- A lock store writes its bytes or, its conditions failing, none (R503). -/
theorem changedWithin_lockStoreAt {t : State} {va : Word} {pa : PAddr} {v : Word} {ok : Bool}
    (h : s.lockStoreAt va pa n v ok = .next t) : ChangedWithin s.mem t.mem (loc (alignDown pa 1)) n := by
  have hmem {u : State} (hk : u.kept = s.kept) : u.mem = s.mem := mem_of_space (space_of_kept hk)
  unfold State.lockStoreAt at h
  obtain ⟨u, hu, hk⟩ | ⟨u, hu, hk⟩ := accessCheck_cases s (s.lockReq va n true (if ok then .bytes n v else .free)) pa <;>
    rw [hu] at h <;> cases h
  · rw [← hmem hk]
    cases ok with
    | true => exact changedWithin_storePhys (memoryOk_of_space (space_of_kept hk) hok) (cleanCache_of_kept hk hc) _ n _ _
    | false => exact changedWithin_refl _ _ _
  · rw [hmem hk]
    exact changedWithin_refl _ _ _

theorem storesOnly_execLockStore {ra : Reg} {va : Word} :
    s.StoresOnly (s.inPlace (s.lockReq va n true .free)) (s.execLockStore ra va n) := by
  refine storesOnly_inPlace ?_
  split
  · exact storesOnly_next (mem_of_space (space_of_kept (addressCheck_kept ‹_›)))
  · obtain ⟨pa, hp⟩ | ⟨u, hp, hk⟩ | hp := translate_cases s (s.lockReq va n true .free) <;> rw [hp]
    · intro t ht
      exact storesOnly_changed rfl hp (changedWithin_lockStoreAt (s := s.drawn) hok hc ht) _ rfl
    · exact storesOnly_next (mem_of_space (space_of_kept hk))
    · exact storesOnly_fault _

end

/-! ### Loads and cache control -/

section
variable {s : State} {o : Option (Pipe × MemReq)} {q : MemReq} {n : Nat} (hc : s.cleanCache)
include hc

theorem storesOnly_execIntLoad {ra : Reg} {ext : Word → Word} : s.StoresOnly o (s.execIntLoad ra q n ext) :=
  storesOnly_orNull (storesOnly_atDecode (storesOnly_execLoad hc fun t _ => space_writeReg t ra _))

theorem storesOnly_execFloatLoad {fa : Reg} {k : DataKind} {conv : Word → Word} :
    s.StoresOnly o (s.execFloatLoad fa q n k conv) :=
  storesOnly_orNull (storesOnly_atDecode (storesOnly_execLoad hc fun t _ => space_writeF t fa _ k))

theorem storesOnly_execVecLoad {fa : Reg} {k : DataKind} {conv : Vec → Vec} :
    s.StoresOnly o (s.execVecLoad fa q n k conv) :=
  storesOnly_orNull (storesOnly_atDecode (storesOnly_execLoad hc fun t _ => space_writeV t fa _ k))

theorem storesOnly_execPriLoad {ra : Reg} : s.StoresOnly o (s.execPriLoad ra q n) :=
  storesOnly_atDecode (storesOnly_orAdvance (storesOnly_execLoad hc fun t _ => space_writeReg t ra _))

theorem storesOnly_execLockLoad {ra : Reg} {va : Word} : s.StoresOnly o (s.execLockLoad ra va n) := by
  refine storesOnly_atDecode (storesOnly_andThen (keepsSpace_check s _) fun pa t ht => ?_)
  obtain ⟨-, -, -, hk⟩ := check_ok ht
  exact (mem_of_space (space_writeReg _ ra _)).trans (loadPhys_cells (cleanCache_of_kept hk hc) pa n false).1

theorem storesOnly_execLineAt {f : LineRule} {pa : PAddr} : s.StoresOnly o (s.execLineAt q f pa) := by
  unfold State.execLineAt
  split
  · exact storesOnly_next rfl
  · split
    · exact storesOnly_next (mem_of_space (space_of_kept (matchCheck_kept ‹_›)))
    · split
      · exact storesOnly_next (mem_of_space (space_of_kept (kept_raiseDataPhys _ _ _ _ _)))
      · refine storesOnly_andThen ?_ fun p t ht => mem_lineEffect (s := t) ?_ f p
        · split
          · exact keepsSpace_evictAnswer s q pa
          · rfl
        · split at ht
          · have hk := evictAnswer_keeps s q pa
            rw [ht] at hk
            exact cleanCache_of_kept hk.2 hc
          · cases ht
            exact hc

theorem storesOnly_execLine {rb : Reg} {d : BitVec 16} {ill : Option Bool} {f : LineRule} :
    s.StoresOnly o (s.execLine rb d ill f) := by
  refine storesOnly_atDecode ?_
  split
  · exact storesOnly_next (mem_of_space (space_of_kept (addressCheck_kept ‹_›)))
  · obtain ⟨pa, hp⟩ | ⟨t, hp, hk⟩ | hp := translate_cases s (s.lineReq rb d) <;> rw [hp]
    · exact storesOnly_execLineAt hc
    · refine storesOnly_next ?_
      split
      · exact mem_of_space (space_of_kept hk)
      · rfl
    · exact storesOnly_fault _

theorem storesOnly_execFetchd {rb : Reg} {d : BitVec 16} : s.StoresOnly o (execFetchd rb d s) := storesOnly_execLine hc

theorem storesOnly_execFetchdE {rb : Reg} {d : BitVec 16} : s.StoresOnly o (execFetchdE rb d s) := storesOnly_execLine hc

end

/-! ### Instructions that reach no memory -/

section
variable {s : State} {o : Option (Pipe × MemReq)}

theorem storesOnly_execOperate {rc : Reg} {v : Word} {trap : Bool} : s.StoresOnly o (s.execOperate rc v trap) :=
  storesOnly_orNull (storesOnly_same (by split <;> simp))

theorem storesOnly_execJump {ra rb : Reg} : s.StoresOnly o (s.execJump ra rb) := by
  unfold State.execJump
  refine storesOnly_same ?_
  split
  · exact space_raiseBadIva s _
  · exact space_atTarget s _ fun u => space_writeReg u ra _

theorem storesOnly_execLinkBranch {ra : Reg} {d : BitVec 21} : s.StoresOnly o (s.execLinkBranch ra d) := by
  unfold State.execLinkBranch
  exact storesOnly_same (space_atTarget s _ fun u => space_writeReg u ra _)

theorem storesOnly_execCondBranch {taken : Bool} {d : BitVec 21} : s.StoresOnly o (s.execCondBranch taken d) := by
  unfold State.execCondBranch
  refine storesOnly_same ?_
  split
  · exact space_atTarget s _ fun u => space_transferTo u _
  · exact space_fallThrough s

theorem storesOnly_execFpBranch {fa : Reg} {taken : Word → Bool} {d : BitVec 21} :
    s.StoresOnly o (s.execFpBranch fa taken d) := by
  unfold State.execFpBranch
  refine storesOnly_same ?_
  split <;> exact space_useF s fa _

theorem storesOnly_execToF {fc : Reg} {v : Word} {k : DataKind} : s.StoresOnly o (s.execToF fc v k) :=
  storesOnly_orNull (storesOnly_same (by simp))

theorem storesOnly_execToV {fc : Reg} {v : Vec} {k : DataKind} : s.StoresOnly o (s.execToV fc v k) :=
  storesOnly_orNull (storesOnly_same (by simp))

theorem storesOnly_execFToR {fa rc : Reg} {k : DataKind} {conv : Word → Word} :
    s.StoresOnly o (s.execFToR fa rc k conv) := storesOnly_orNull (storesOnly_same (by simp))

theorem storesOnly_execFimovs {fa rc : Reg} : s.StoresOnly o (execFimovs fa rc s) := storesOnly_execFToR

theorem storesOnly_execFimovd {fa rc : Reg} : s.StoresOnly o (execFimovd fa rc s) := storesOnly_execFToR

theorem storesOnly_execVinsw {fa fb : Reg} {idx : BitVec 3} {fc : Reg} :
    s.StoresOnly o (execVinsw fa fb idx fc s) := by
  unfold execVinsw
  exact storesOnly_orNull (storesOnly_same (by simp))

theorem storesOnly_execVextw {fa : Reg} {idx : BitVec 3} {fc : Reg} : s.StoresOnly o (execVextw fa idx fc s) := by
  unfold execVextw
  exact storesOnly_orNull (storesOnly_same (by simp))

theorem storesOnly_execFaddd {fa fb fc : Reg} : s.StoresOnly o (execFaddd fa fb fc s) := by
  unfold execFaddd
  exact storesOnly_orNull (storesOnly_same (by simp))

theorem storesOnly_execVaddd {fa fb fc : Reg} : s.StoresOnly o (execVaddd fa fb fc s) := by
  unfold execVaddd
  exact storesOnly_orNull (storesOnly_same (by simp))

theorem storesOnly_execWfpcr {fa : Reg} : s.StoresOnly o (execWfpcr fa s) := by
  unfold execWfpcr
  exact storesOnly_same (space_useF s fa .integer)

theorem storesOnly_execSetfpec {c : BitVec 2} : s.StoresOnly o (s.execSetfpec c) := storesOnly_same (by rfl)

theorem storesOnly_execMemb : s.StoresOnly o (execMemb s) := storesOnly_same (by rfl)

theorem storesOnly_execImemb : s.StoresOnly o (execImemb s) := storesOnly_same (by rfl)

theorem storesOnly_execWrF {ra : Reg} : s.StoresOnly o (execWrF ra s) := by
  unfold execWrF
  exact storesOnly_same (by rfl)

theorem storesOnly_execRead {ra : Reg} {v : Word} : s.StoresOnly o (s.execRead ra v) :=
  storesOnly_same (space_writeReg s ra v)

theorem storesOnly_execSys {fn : BitVec 25} {t : State} (h : t.space = s.space) : s.StoresOnly o (s.execSys fn t) := by
  refine storesOnly_same ?_
  split
  · rfl
  · exact h

theorem storesOnly_execPriWcsr {ra : Reg} {idx : BitVec 8} : s.StoresOnly o (execPriWcsr ra idx s) := by
  refine storesOnly_atDecode fun t ht => ?_
  obtain ⟨-, -, -, -, hm, -⟩ := csrWrite_frame ht
  exact storesOnly_next (s := s) hm _ rfl

theorem storesOnly_execHalt : s.StoresOnly o (execHalt s) := storesOnly_same (by split <;> rfl)

end

/-! ## The obligation -/

/-- Every instruction stores within the access that `dataReq` gives it. -/
theorem exec_storesOnly {s : State} (hok : s.memoryOk) (hc : s.cleanCache) (i : Instr) :
    s.StoresOnly (s.dataReq i) (exec i s) := by
  cases i with
  | addw | addwL | subw | subwL | addl | addlL | subl | sublL | mulw | mulwL | mull | mullL | umulh | umulhL
  | cmpeq | cmpeqL | cmplt | cmpltL | cmple | cmpleL | cmpult | cmpultL | cmpule | cmpuleL | and | andL | bic | bicL
  | bis | bisL | ornot | ornotL | xor | xorL | eqv | eqvL | ldi | ldih => exact storesOnly_execOperate
  | ldbu | ldhu | ldw | ldl | ldlU | ldwNc | ldlNc => exact storesOnly_execIntLoad hc
  | flds | fldd | lddNc => exact storesOnly_execFloatLoad hc
  | ldwe | ldse | ldde | vlds | vldd | vldwU | vldsU | vlddU | vlddNc => exact storesOnly_execVecLoad hc
  | priLdwP | priLdlP | priLdwV | priLdlV | priLdwVpte | priLdlVpte => exact storesOnly_execPriLoad hc
  | lldw | lldl => exact storesOnly_execLockLoad hc
  | stb | sth | stw | stl | stlU | stwNc | stlNc => exact storesOnly_intStore hok hc rfl rfl
  | priStwP | priStlP | priStwV | priStlV => exact storesOnly_execPriStore hok hc rfl rfl
  | fsts | fstd | stdNc => exact storesOnly_execFloatStore hok hc
  | vsts | vstd | vstwU | vstsU | vstdU | vstdNc => exact storesOnly_wideStore hok hc (by decide) rfl rfl rfl
  | vstwUl | vstsUl | vstdUl => exact storesOnly_execStoreLow hok hc rfl
  | vstwUh | vstsUh | vstdUh => exact storesOnly_execStoreHigh hok hc rfl
  | ldwInc | ldlInc | ldwDec | ldlDec | ldwSet | ldlSet => exact storesOnly_execAtomic hok hc
  | priLdwIncP | priLdlIncP | priLdwDecP | priLdlDecP | priLdwSetP | priLdlSetP =>
    exact storesOnly_execPriAtomic hok hc
  | lstw | lstl => exact storesOnly_execLockStore hok hc
  | fetchd => exact storesOnly_execFetchd hc
  | fetchdE => exact storesOnly_execFetchdE hc
  | flushd | evictdl | evictdg => exact storesOnly_execLine hc
  | call | ret | jmp => exact storesOnly_execJump
  | br | bsr => exact storesOnly_execLinkBranch
  | beq | bne | blt | ble | bgt | bge | blbc | blbs => exact storesOnly_execCondBranch
  | fbeq | fbne | fblt | fble | fbgt | fbge => exact storesOnly_execFpBranch
  | ifmovs | ifmovd | rfpcr => exact storesOnly_execToF
  | vinsf | vcpyf => exact storesOnly_execToV
  | fimovs => exact storesOnly_execFimovs
  | fimovd => exact storesOnly_execFimovd
  | vinsw => exact storesOnly_execVinsw
  | vextf fa idx fc => exact storesOnly_orNull (storesOnly_same (space_writeF s fc _ _))
  | vextw => exact storesOnly_execVextw
  | faddd => exact storesOnly_execFaddd
  | vaddd => exact storesOnly_execVaddd
  | wfpcr => exact storesOnly_execWfpcr
  | setfpec0 | setfpec1 | setfpec2 | setfpec3 => exact storesOnly_execSetfpec
  | memb => exact storesOnly_execMemb
  | imemb => exact storesOnly_execImemb
  | priRet | priRetB => exact storesOnly_same (by rfl)
  | wrF => exact storesOnly_execWrF
  | nop => exact storesOnly_execNull
  | rtc | rcid | rtid => exact storesOnly_execRead
  | rdF ra => exact storesOnly_orNull (storesOnly_same (space_writeReg s ra _))
  | halt => exact storesOnly_execHalt
  | sysCall => exact storesOnly_execSys rfl
  | sysCallB fn => exact storesOnly_execSys (space_enterSysCallB s fn)
  | priRcsr ra idx => exact storesOnly_same ((space_writeReg _ ra _).trans (space_csrRead s _))
  | priWcsr => exact storesOnly_execPriWcsr

/-- Settles O59: a byte that an instruction changes is one that its access covers. -/
theorem storeFrame : Obligations.StoreFrame := fun _ t i hok hc h => exec_storesOnly hok hc i t h

end Sys2Proof.Machine
end

section
/-! The loads and stores of the scalar, floating-point and vector registers where their access is ready: each shared shape
completes once, and each instruction is one of the shapes. -/

namespace Sys2Proof.Machine

/-! ## Accesses that are ready -/

section
variable {s : State} {q : MemReq} {pa : PAddr} {n : Nat}

/-- Readiness does not depend on how many free values have been drawn. -/
theorem State.SameButDraws.ready {u : State} (h : s.SameButDraws u) (hr : s.ready q pa) : u.ready q pa := by
  obtain ⟨k, rfl⟩ := h
  exact hr

/-- With no data match enabled readiness does not depend on the value that a match would compare. -/
theorem ready_comparing (hr : s.ready q pa) (v : Vec) : s.ready (q.comparing n v) pa := hr

theorem execLoad_ready {use : State → Vec → State} (hr : s.ready q pa) :
    s.execLoad q n use =
      let r := s.loadPhys pa n (q.cls == .nonCache)
      .next (use r.2 r.1).advance := by
  rw [State.execLoad, check_of_ready hr]
  rfl

theorem execStore_ready {v : Vec} (hr : s.ready q pa) :
    s.execStore q n v = .next (s.storePhys pa n v (q.cls == .nonCache)).advance := by
  rw [State.execStore, check_of_ready hr]
  rfl

/-! ## The shared shapes -/

/-- A load into R[ra] of the datum `conv` makes of what is read (R420, R425 to R429). -/
theorem execIntLoad_ready (ha : s.iaMatch = false) {ra : Reg} (h31 : ra ≠ 31) (hr : s.ready q pa) {ext : Word → Word}
    {conv : Vec → Word} (hn : q.size = n) (hconv : ∀ v : Vec, ext (v.extractLsb' 0 64) = conv v) :
    s.execIntLoad ra q n ext =
      let r := s.loadPhys pa q.size (q.cls == .nonCache)
      .next (r.2.writeReg ra (conv r.1)).advance := by
  rw [State.execIntLoad, if_neg h31, atDecode_run (passes_int ha), execLoad_ready hr, hn]
  simp only [hconv]

/-- A load into F[fa] (R434, R435). -/
theorem execFloatLoad_ready (hp : s.passes .fp) {fa : Reg} (h31 : fa ≠ 31) (hr : s.ready q pa) {k : DataKind}
    {ext : Word → Word} {conv : Vec → Word} (hn : q.size = n) (hconv : ∀ v : Vec, ext (v.extractLsb' 0 64) = conv v) :
    s.execFloatLoad fa q n k ext =
      let r := s.loadPhys pa q.size (q.cls == .nonCache)
      .next (r.2.writeF fa (conv r.1) k).advance := by
  rw [State.execFloatLoad, if_neg h31, atDecode_run hp, execLoad_ready hr, hn]
  simp only [hconv]

/-- A load into V[fa] (R440). -/
theorem execVecLoad_ready (hp : s.passes .simd) {fa : Reg} (h31 : fa ≠ 31) (hr : s.ready q pa) {k : DataKind}
    {conv : Vec → Vec} (hn : q.size = n) :
    s.execVecLoad fa q n k conv =
      let r := s.loadPhys pa q.size (q.cls == .nonCache)
      .next (r.2.writeV fa (conv r.1) k).advance := by
  rw [State.execVecLoad, if_neg h31, atDecode_run hp, execLoad_ready hr, hn]

/-- A store of what an integer register holds. -/
theorem intStore_ready (ha : s.iaMatch = false) (hr : s.ready q pa) {v : Vec} (hn : q.size = n) :
    s.atDecode none .int (s.execStore q n v) = .next (s.storePhys pa q.size v (q.cls == .nonCache)).advance := by
  rw [atDecode_run (passes_int ha), execStore_ready hr, hn]

/-- A store from F[fa], in a state that has drawn a value where the data do not suit (U16). -/
theorem execFloatStore_ready (hp : s.passes .fp) {fa : Reg} {va : Word} {cls : MemClass} {k : DataKind}
    {conv : Word → Word} (hr : s.ready (s.storeReq va n cls (conv (s.useF fa k).1)) pa) :
    s.execFloatStore fa va n cls k conv =
      .next ((s.useF fa k).2.storePhys pa n ((conv (s.useF fa k).1).setWidth 256) (cls == .nonCache)).advance := by
  rw [State.execFloatStore, atDecode_run hp, execStore_ready ((sameButDraws_useF s fa k).ready hr)]
  rfl

/-- A store from V[fa], of a part of it or the whole. -/
theorem execVecStore_ready (hp : s.passes .simd) {fa : Reg} {k : DataKind} {conv : Vec → Vec} (hr : s.ready q pa)
    (hn : q.size = n) :
    s.execVecStore fa q n k conv =
      let x := s.useV fa k
      .next (x.2.storePhys pa q.size (conv x.1) (q.cls == .nonCache)).advance := by
  rw [State.execVecStore, atDecode_run hp,
    execStore_ready ((sameButDraws_useV s fa k).ready (ready_comparing hr (conv (s.useV fa k).1))), hn]
  rfl

/-- A VSTx_UL stores the low bytes of V[fa] up to the end of the block (R444). -/
theorem execStoreLow_ready (hp : s.passes .simd) {fa : Reg} {va : Word} {b align : Nat} {k : DataKind}
    {conv : Vec → Vec} (hr : s.ready (s.vstoreReq va (b - va.toNat % b) align .vector) pa) :
    s.execStoreLow fa va b align k conv =
      let x := s.useV fa k
      .next (x.2.storePhys pa (b - va.toNat % b) (conv x.1) false).advance := by
  unfold State.execStoreLow
  exact execVecStore_ready hp hr rfl

/-- A VSTx_UH stores the high bytes of V[fa] from the start of the block (R444). -/
theorem execStoreHigh_ready (hp : s.passes .simd) {fa : Reg} {va : Word} {b align : Nat} {k : DataKind}
    {conv : Vec → Vec} (hr : s.ready ((s.vstoreReq va (va.toNat % b) align .vector).inBlock b) pa) :
    s.execStoreHigh fa va b align k conv =
      let x := s.useV fa k
      .next (x.2.storePhys pa (va.toNat % b) (conv x.1 >>> (8 * (b - va.toNat % b))) false).advance := by
  unfold State.execStoreHigh
  exact execVecStore_ready hp hr rfl

end

/-! ## What is read, as the register takes it -/

theorem zextB_datum (v : Vec) : zextB (v.extractLsb' 0 64) = (v.extractLsb' 0 8).setWidth 64 := by
  rw [zextB, BitVec.extractLsb'_extractLsb'_of_le (by omega)]

theorem zextH_datum (v : Vec) : zextH (v.extractLsb' 0 64) = (v.extractLsb' 0 16).setWidth 64 := by
  rw [zextH, BitVec.extractLsb'_extractLsb'_of_le (by omega)]

theorem sextW_datum (v : Vec) : sextW (v.extractLsb' 0 64) = (v.extractLsb' 0 32).signExtend 64 := by
  rw [sextW, BitVec.extractLsb'_extractLsb'_of_le (by omega)]

theorem fldsWord_datum (v : Vec) : fldsWord (v.extractLsb' 0 64) = fldsConvert (v.extractLsb' 0 32) := by
  rw [fldsWord, BitVec.extractLsb'_extractLsb'_of_le (by omega)]

/-! ## The obligations -/

/-- Settles O33: each load is a load into R[ra] or F[ra] of one datum; LDL_U by the platform's parameter. -/
theorem scalarLoads : Obligations.ScalarLoads := by
  intro s pa ra rb disp d12 h31 e e12
  refine ⟨fun ha p hp hr => ?integer, fun hf p hp hr => ?float⟩
  case integer =>
    simp only [List.mem_cons, List.not_mem_nil, or_false] at hp
    obtain rfl | rfl | rfl | rfl | rfl | rfl | rfl := hp
    · exact execIntLoad_ready ha h31 hr rfl zextB_datum
    · exact execIntLoad_ready ha h31 hr rfl zextH_datum
    · exact execIntLoad_ready ha h31 hr rfl sextW_datum
    · exact execIntLoad_ready ha h31 hr rfl fun _ => rfl
    · exact execIntLoad_ready ha h31 hr (by dsimp only; split <;> rfl) fun _ => rfl
    · exact execIntLoad_ready ha h31 hr rfl sextW_datum
    · exact execIntLoad_ready ha h31 hr rfl fun _ => rfl
  case float =>
    simp only [List.mem_cons, List.not_mem_nil, or_false] at hp
    obtain rfl | rfl | rfl := hp
    · exact execFloatLoad_ready hf h31 hr rfl fldsWord_datum
    · exact execFloatLoad_ready hf h31 hr rfl fun _ => rfl
    · exact execFloatLoad_ready hf h31 hr rfl fun _ => rfl

/-- Settles O34: each store is one of R[ra], or of F[ra] as its kind of data gives it. -/
theorem scalarStores : Obligations.ScalarStores := by
  intro s pa ra rb disp d12 e e12 v f g single
  refine ⟨fun ha p hp hr => ?integer, fun hf p hp hr => ?float⟩
  case integer =>
    simp only [List.mem_cons, List.not_mem_nil, or_false] at hp
    obtain rfl | rfl | rfl | rfl | rfl | rfl | rfl := hp <;> exact intStore_ready ha hr rfl
  case float =>
    simp only [List.mem_cons, List.not_mem_nil, or_false] at hp
    obtain rfl | rfl | rfl := hp
    · exact execFloatStore_ready hf (k := .single) (conv := fstsWord) hr
    · exact execFloatStore_ready hf (k := .image) (conv := id) hr
    · exact execFloatStore_ready hf (k := .image) (conv := id) hr

/-- Settles O35: each load is a load into V[fa] of what it makes of the bytes read. -/
theorem vectorLoads : Obligations.VectorLoads := by
  intro s pa fa rb disp d12 h31 hp e e12 wide p hmem hr
  simp only [List.mem_cons, List.not_mem_nil, or_false] at hmem
  obtain rfl | rfl | rfl | rfl | rfl | rfl | rfl | rfl | rfl := hmem <;> exact execVecLoad_ready hp h31 hr rfl

/-- Settles O36: each store is one of a part of V[fa], the whole, the low or the high part. -/
theorem vectorStores : Obligations.VectorStores := by
  intro s pa fa rb disp d12 hp e e12 same singles o32 o16 p hmem hr
  simp only [List.mem_cons, List.not_mem_nil, or_false] at hmem
  obtain rfl | rfl | rfl | rfl | rfl | rfl | rfl | rfl | rfl | rfl | rfl | rfl := hmem
  · exact execVecStore_ready hp hr rfl
  · exact execVecStore_ready hp hr rfl
  · exact execVecStore_ready hp hr rfl
  · exact execVecStore_ready hp hr rfl
  · exact execVecStore_ready hp hr rfl
  · exact execStoreLow_ready hp (conv := id) hr
  · exact execStoreLow_ready hp (conv := fstsVec) hr
  · exact execStoreLow_ready hp (conv := id) hr
  · exact execStoreHigh_ready hp (conv := id) hr
  · exact execStoreHigh_ready hp (conv := fstsVec) hr
  · exact execStoreHigh_ready hp (conv := id) hr
  · exact execVecStore_ready hp hr rfl

end Sys2Proof.Machine
end

section
/-! Atomics whose datum overflows, the lock loads and stores where their access is ready, and where a lock store and RD_F
belong. -/

namespace Sys2Proof.Machine

section
variable {s u : State} {pa : PAddr} {ra : Reg} {n : Nat}

/-! ## What an access leaves alone -/

theorem pc_of_withoutMemory (h : u.withoutMemory = s.withoutMemory) : u.pc = s.pc := pc_of_view (view_of_withoutMemory h)

theorem lock_of_withoutMemory (h : u.withoutMemory = s.withoutMemory) : u.lock = s.lock :=
  show u.withoutMemory.lock = s.withoutMemory.lock from congrArg State.lock h

theorem priBase_of_withoutMemory (h : u.withoutMemory = s.withoutMemory) : u.ibox.priBase = s.ibox.priBase :=
  show u.withoutMemory.ibox.priBase = s.withoutMemory.ibox.priBase from congrArg (fun t => t.ibox.priBase) h

/-! ## Atomics that overflow -/

/-- An atomic whose datum overflows does all that it does otherwise, then takes ARITH (R493, R626). -/
theorem fetchAndOp_overflow {pc : Word} {op : AtomicOp}
    (h : op.overflows n ((s.loadPhys pa n false).1.extractLsb' 0 64) = true) :
    s.fetchAndOp pc ra pa n op true = (s.fetchAndOp pc ra pa n op false).raiseArith pc (flag true 14) ra := by
  rw [State.fetchAndOp, h]
  rfl

/-- ARITH after a completed instruction with the one cause INCO, whose entry is by the PRI_BASE of before (R590, R592). -/
theorem raiseArith_inco (hb : u.ibox.priBase = s.ibox.priBase) (pc : Word) :
    u.advance.raiseArith pc (flag true 14) ra =
      { u with
        pc := entryAddr s.ibox.priBase 0xB80
        ibox := { u.ibox with excPc := sext53 pc, excSum := (0x4000 : Word) ||| (ra.setWidth 64 <<< 8) }
        lock := { u.lock with valid := false, flag := false }
        lastExc := some .arith } := by
  rw [← hb]
  rfl

/-- With the trap enabled an overflowing atomic whose access is ready completes, the datum `new` at the address and `x` in
its register, and takes ARITH. -/
theorem execAtomic_overflow (ha : s.iaMatch = false) (ht : s.incoEnabled = true) {va : Word} {op : AtomicOp}
    (hr : s.ready (s.atomicReq va n) pa)
    (ho : op.overflows n ((s.loadPhys pa n false).1.extractLsb' 0 64) = true) {new x : Word}
    (hnew : op.new ((s.loadPhys pa n false).1.extractLsb' 0 64) = new)
    (hx : x = extendBySize n ((s.loadPhys pa n false).1.extractLsb' 0 64)) :
    s.execAtomic ra va n op = .next
      ((((s.loadPhys pa n false).2.atomicStore pa n (new.setWidth 256)).writeReg ra x).advance.raiseArith s.pc
        (flag true 14) ra) := by
  rw [execAtomic_run ha hr, ht, fetchAndOp_overflow ho, fetchAndOp_quiet (Bool.false_and _), hnew, ← hx]

/-! ## Lock loads -/

/-- A lock load ends by setting the lock, in a state that has kept the pc and the lock so far (R501). -/
theorem setLock_advance (hp : u.pc = s.pc) (hl : u.lock = s.lock) :
    (u.setLock pa n).advance =
      { u with pc := s.pc + 4, lock := { s.lock with valid := true, addr := pa, size := n, kept := true } } := by
  rw [← hp, ← hl]
  rfl

/-- A lock load whose access is ready (R501, R511). -/
theorem execLockLoad_ready (ha : s.iaMatch = false) {va : Word} (hr : s.ready (s.lockReq va n false .none) pa) :
    s.execLockLoad ra va n =
      let r := s.loadPhys pa n false
      .next { r.2.writeReg ra (if n = 4 then (r.1.extractLsb' 0 32).signExtend 64 else r.1.extractLsb' 0 64) with
        pc := s.pc + 4, lock := { s.lock with valid := true, addr := pa, size := n, kept := true } } := by
  have hm := withoutMemory_loadPhys s pa n false
  have hend (v : Word) := setLock_advance (pa := pa) (n := n) ((State.writeReg_pc _ ra v).trans (pc_of_withoutMemory hm))
    ((State.writeReg_lock _ ra v).trans (lock_of_withoutMemory hm))
  rw [State.execLockLoad, atDecode_run (passes_int ha), check_of_ready hr]
  simp only [Checked.andThen, hend, extendBySize_datum]

/-! ## Lock stores -/

theorem alignDown_one (pa : PAddr) : alignDown pa 1 = pa := by
  rw [alignDown, Nat.div_one, Nat.mul_one, BitVec.ofNat_toNat, BitVec.setWidth_eq]

/-- A lock access that is ready is translated to its address, and passes the checks made there in every state that differs
in the count of free values, whatever value a match would compare. -/
theorem lockReq_ready {va : Word} {w : Bool} {v : StoreValue} (hr : s.ready (s.lockReq va n w v) pa) (x : StoreValue) :
    s.addressCheck (s.lockReq va n w v) = none ∧ s.translate (s.lockReq va n w v) = .ok pa s ∧
      s.drawn.accessCheck (s.drawn.lockReq va n w x) pa = .ok pa s.drawn := by
  have reaches {t : State} {y : StoreValue} (h : t.ready (t.lockReq va n w y) pa) : t.reaches (t.lockReq va n w y) pa := by
    obtain ⟨-, -, -, -, -, p, hp, rfl⟩ := h
    rwa [show alignDown p (t.lockReq va n w y).block = p from alignDown_one p]
  have hd : s.drawn.ready (s.drawn.lockReq va n w x) pa := hr
  obtain ⟨hn, ht⟩ := checks_of_reaches (reaches hr)
  obtain ⟨hn', ht'⟩ := checks_of_reaches (reaches hd)
  have hc := check_of_ready hd
  rw [State.check, hn', ht'] at hc
  exact ⟨hn, ht, hc⟩

/-- A lock store ends by clearing the lock and recording its success, in a state that has kept the pc and the lock so far
(R503). -/
theorem endLock_advance (hp : u.pc = s.pc) (hl : u.lock = s.lock) (ok : Bool) :
    (u.endLock ok).advance =
      { u with pc := s.pc + 4, lock := { s.lock with valid := false, flag := false, success := ok } } := by
  rw [← hp, ← hl]
  rfl

/-- A lock store in its place whose access is ready: its conditions and the drawn bit decide whether it stores (R503, U12). -/
theorem execLockStore_ready (ha : s.iaMatch = false) (hi : s.lockStoreIllegal = none) {va : Word}
    (hr : s.ready (s.lockReq va n true .free) pa) :
    let ok := s.lockHolds pa n && s.free.getLsbD 0
    let u := if ok then s.drawn.storePhys pa n ((s.readReg ra).setWidth 256) false else s.drawn
    s.execLockStore ra va n =
      .next { u with pc := s.pc + 4, lock := { s.lock with valid := false, flag := false, success := ok } } := by
  intro ok u
  obtain ⟨hn, ht, hc⟩ := lockReq_ready hr (if ok then .bytes n (s.readReg ra) else .free)
  have hm : u.withoutMemory = s.withoutMemory := by
    simp only [u, apply_ite State.withoutMemory, withoutMemory_storePhys, withoutMemory_drawn, ite_self]
  have hstore : s.drawn.lockStoreAt va pa n (s.readReg ra) ok = .next (u.endLock ok).advance :=
    congrArg (Checked.andThen · _) hc
  rw [State.execLockStore, hi, atDecode_run (passes_int ha), hn, ht,
    ← endLock_advance (pc_of_withoutMemory hm) (lock_of_withoutMemory hm)]
  exact hstore

theorem lockHolds_iff : s.lockHolds pa n = true ↔
    s.lock.valid = true ∧ s.lock.flag = true ∧ s.lock.addr = pa ∧ s.lock.size = n ∧ s.lock.kept = true := by
  simp only [State.lockHolds, Bool.and_eq_true, beq_iff_eq, and_assoc]

/-! ## The places of lock stores and of RD_F -/

theorem pairIsRdF_iff : s.pairIsRdF = true ↔ ∃ r, decode s.plat.supplement s.pair = some (.rdF r) ∧ r ≠ 31 := by
  unfold State.pairIsRdF
  split
  · simp [*]
  · rename_i hno
    exact ⟨fun h => absurd h Bool.false_ne_true, fun ⟨r, h, _⟩ => absurd h (hno r)⟩

theorem pairIsLockStore_iff : s.pairIsLockStore = true ↔
    ∃ x y z, decode s.plat.supplement s.pair = some (.lstw x y z) ∨
      decode s.plat.supplement s.pair = some (.lstl x y z) := by
  unfold State.pairIsLockStore
  split
  · simp [*]
  · simp [*]
  · rename_i hw hl
    exact ⟨fun h => absurd h Bool.false_ne_true, fun ⟨x, y, z, h⟩ => h.elim (absurd · (hw x y z)) (absurd · (hl x y z))⟩

theorem lockStoreIllegal_of_misplaced
    (h : ¬(s.pc.getLsbD 2 = false ∧ ∃ r, decode s.plat.supplement s.pair = some (.rdF r) ∧ r ≠ 31)) :
    s.lockStoreIllegal = some true := by
  rw [← pairIsRdF_iff] at h
  exact if_neg (by simpa using h)

theorem rdFIllegal_of_misplaced
    (h : ¬(s.pc.getLsbD 2 = true ∧ ∃ x y z, decode s.plat.supplement s.pair = some (.lstw x y z) ∨
      decode s.plat.supplement s.pair = some (.lstl x y z))) : s.rdFIllegal = some true := by
  rw [← pairIsLockStore_iff] at h
  exact if_neg (by simpa using h)

/-- What is out of its place raises OPCDEC, with its word and LOCK_IGL in IGL_INST (R505, R620). -/
theorem exec_misplaced_faults {i : Instr} (h : s.illegal i = some true) :
    ∃ t, exec i s = .next t ∧ s.faultsTo t 0xD80 ∧ t.dbox = s.dbox ∧ t.ebox = s.ebox ∧
      t.ibox.iglInst = 0x100000000 ||| s.ir.setWidth 64 :=
  ⟨_, exec_illegal h, ⟨rfl, (entered_raiseOpcdec s true).atEntry.mode, rfl, rfl, rfl⟩, rfl, rfl, rfl⟩

end

/-! ## The obligations -/

/-- Settles O39: each of the four is an atomic of its size whose datum overflows. -/
theorem atomicOverflowTrap : Obligations.AtomicOverflowTrap := by
  intro s pa ra rb d ha hfd hovf e old p hp hr ho u
  have ht : s.incoEnabled = true := incoEnabled_iff.mpr ⟨hfd, hovf⟩
  have hlong : (8 : Nat) ≠ 4 := by decide
  have hb : u.ibox.priBase = s.ibox.priBase := by
    rw [State.writeReg_ibox]
    exact priBase_of_withoutMemory (by rw [withoutMemory_atomicStore, withoutMemory_loadPhys])
  refine Eq.trans ?_ (congrArg Host.Outcome.next (raiseArith_inco hb s.pc))
  simp only [List.mem_cons, List.not_mem_nil, or_false] at hp
  obtain rfl | rfl | rfl | rfl := hp
  · exact execAtomic_overflow ha ht (op := .inc) hr (beq_iff_eq.mpr ho) rfl (if_pos rfl)
  · exact execAtomic_overflow ha ht (op := .inc) hr (beq_iff_eq.mpr ho) rfl (if_neg hlong)
  · exact execAtomic_overflow ha ht (op := .dec) hr (beq_iff_eq.mpr ho) rfl (if_pos rfl)
  · exact execAtomic_overflow ha ht (op := .dec) hr (beq_iff_eq.mpr ho) rfl (if_neg hlong)

/-- Settles O40: both are lock loads, of a word and of a long. -/
theorem lockLoads : Obligations.LockLoads := fun _ _ _ _ _ ha =>
  ⟨fun hr => execLockLoad_ready ha hr, fun hr => execLockLoad_ready ha hr⟩

/-- Settles O41: what the store depends on is what the lock state decides and the drawn bit. -/
theorem lockStores : Obligations.LockStores := by
  intro s pa ra rb d ha hi e p hp hr
  refine ⟨s.lockHolds pa p.2 && s.free.getLsbD 0, ?conditions, ?effect⟩
  case conditions =>
    simp only [Bool.and_eq_true, lockHolds_iff, and_assoc]
    rfl
  case effect =>
    simp only [List.mem_cons, List.not_mem_nil, or_false] at hp
    obtain rfl | rfl := hp <;> exact execLockStore_ready ha hi hr

/-- Settles O42: nothing but the address match stops WR_F, and in its place RD_F. -/
theorem lockFlagMoves : Obligations.LockFlagMoves := by
  intro s ra ha
  refine ⟨atDecode_run (passes_int ha) _, fun hslot hpair h31 => ?rdF, execNull_run ha⟩
  have hplace : s.rdFIllegal = none := if_pos (by rw [hslot, hpair]; rfl)
  calc exec (.rdF ra) s
      = s.atDecode s.rdFIllegal .int (.next (s.writeReg ra (flag s.lock.success 0)).advance) := if_neg h31
    _ = .next (s.writeReg ra (flag s.lock.success 0)).advance := by rw [hplace, atDecode_run (passes_int ha)]

/-- Settles O43: a lock store or RD_F out of its place is illegal with LOCK_IGL. -/
theorem lockPosition : Obligations.LockPosition := by
  intro s ra rb d
  refine ⟨fun i hi hout => ?lockStore, fun h31 hout => ?rdF⟩
  case lockStore =>
    have hill : s.illegal i = s.lockStoreIllegal := by
      simp only [List.mem_cons, List.not_mem_nil, or_false] at hi
      obtain rfl | rfl := hi <;> rfl
    exact exec_misplaced_faults (hill.trans (lockStoreIllegal_of_misplaced hout))
  case rdF =>
    have hill : s.illegal (.rdF ra) = s.rdFIllegal := if_neg h31
    exact exec_misplaced_faults (hill.trans (rdFIllegal_of_misplaced hout))

end Sys2Proof.Machine
end

section
/-! The integer operations: what each computes, when its overflow trap is due, and the entry to ARITH after its result. -/

namespace Sys2Proof.Machine

/-! ## What is computed -/

/-- The high half of a product of two words (R548). -/
theorem umulhValue_eq (a b : Word) :
    umulhValue a b = (a.setWidth 128 * b.setWidth 128 : BitVec 128).extractLsb' 64 64 := rfl

theorem cmpeqValue_eq (a b : Word) : cmpeqValue a b = if a = b then 1 else 0 := by
  simp only [cmpeqValue, truth, beq_iff_eq]

theorem cmpltValue_eq (a b : Word) : cmpltValue a b = if a.toInt < b.toInt then 1 else 0 := by
  simp only [cmpltValue, truth, BitVec.slt_iff_toInt_lt]

theorem cmpleValue_eq (a b : Word) : cmpleValue a b = if a.toInt ≤ b.toInt then 1 else 0 := by
  simp only [cmpleValue, truth, BitVec.sle_iff_toInt_le]

theorem cmpultValue_eq (a b : Word) : cmpultValue a b = if a.toNat < b.toNat then 1 else 0 := by
  simp only [cmpultValue, truth, BitVec.ult_iff_lt, BitVec.lt_def]

theorem cmpuleValue_eq (a b : Word) : cmpuleValue a b = if a.toNat ≤ b.toNat then 1 else 0 := by
  simp only [cmpuleValue, truth, BitVec.ule_iff_le, BitVec.le_def]

/-- The low half of a product is the product of the low halves (R546). -/
theorem mulwValue_eq (a b : Word) :
    mulwValue a b = ((a.extractLsb' 0 32 : BitVec 32) * b.extractLsb' 0 32).signExtend 64 := by
  rw [mulwValue, sextW, BitVec.extractLsb'_mul (by omega)]

/-! ## When the trap is due -/

theorem s32_eq (a : Word) : s32 a = (a.setWidth 32).toInt := by
  rw [s32, BitVec.setWidth_eq_extractLsb' (by omega)]

theorem overflows_iff (n : Nat) (r : Int) :
    overflows n r = true ↔ ¬(-(2 ^ (n - 1) : Nat) ≤ r ∧ r < (2 ^ (n - 1) : Nat)) := by
  rw [overflows, Bool.or_eq_true, decide_eq_true_eq, decide_eq_true_eq, not_and_or, not_le, not_lt]

/-- An operation overflows exactly where its result does not fit (R539). -/
theorem overflow_iff (op : IntOp) (a b : Word) : op.overflow a b = true ↔ ¬op.fits a b := by
  cases op <;> simp only [IntOp.overflow, s32_eq] <;> exact overflows_iff _ _

section
variable {s : State} {op : IntOp} {a b : Word}

theorem intTrap_iff :
    s.intTrap op a b = true ↔ op ∈ s.plat.intOverflow ∧ ¬op.fits a b ∧ s.ebox.icr.getLsbD 0 = false := by
  simp only [State.intTrap, Bool.and_eq_true, List.contains_iff_mem, overflow_iff, Bool.not_eq_true', and_assoc]

theorem intTrap_of_noIntTrap (h : s.noIntTrap op a b) : s.intTrap op a b = false := by
  rw [Bool.eq_false_iff, Ne, intTrap_iff]
  rintro ⟨hmem, hfit, hfd⟩
  obtain h | h | h := h
  · exact Bool.false_ne_true (hfd.symm.trans h)
  · exact h hmem
  · exact hfit h

end

/-! ## The shared shape -/

section
variable {s : State} {ra rb rc : Reg} {lit : BitVec 8} (ha : s.iaMatch = false) (h31 : rc ≠ 31)
include ha h31

/-- Past the address match an operation writes its result, and then the trap is taken where one is due (R538, R621). -/
theorem execOperate_run (v : Word) (trap : Bool) :
    s.execOperate rc v trap = .next
      (if trap then (s.writeReg rc v).advance.raiseArith s.pc oviBits rc else (s.writeReg rc v).advance) :=
  (if_neg h31).trans (atDecode_run (passes_int ha) _)

theorem execOperate_quiet (v : Word) : s.execOperate rc v false = .next (s.writeReg rc v).advance :=
  execOperate_run ha h31 v false

/-- The two forms of an operation that computes `g`, where `f` says what that is. -/
theorem exec_both_forms {i iL : Instr} {f g : Word → Word → Word} (hfg : ∀ a b, g a b = f a b)
    (hi : exec i s = s.execOperate rc (g (s.readReg ra) (s.readReg rb)) false)
    (hl : exec iL s = s.execOperate rc (g (s.readReg ra) (litValue lit)) false) :
    exec i s = .next (s.writeReg rc (f (s.readReg ra) (s.readReg rb))).advance ∧
      exec iL s = .next (s.writeReg rc (f (s.readReg ra) (lit.setWidth 64))).advance := by
  rw [hi, hl, hfg, hfg, execOperate_quiet ha h31, execOperate_quiet ha h31]
  exact ⟨rfl, rfl⟩

end

/-- Settles O7: each of the twelve computes what is listed for it, in both forms, and so do the address loads. -/
theorem operateResults : Obligations.OperateResults := by
  intro s ra rb rc lit disp ha h31
  refine ⟨fun p hp => ?operate, execOperate_quiet ha h31 _, execOperate_quiet ha h31 _⟩
  simp only [List.mem_cons, List.not_mem_nil, or_false] at hp
  obtain rfl | rfl | rfl | rfl | rfl | rfl | rfl | rfl | rfl | rfl | rfl | rfl := hp
  · exact exec_both_forms ha h31 umulhValue_eq rfl rfl
  · exact exec_both_forms ha h31 cmpeqValue_eq rfl rfl
  · exact exec_both_forms ha h31 cmpltValue_eq rfl rfl
  · exact exec_both_forms ha h31 cmpleValue_eq rfl rfl
  · exact exec_both_forms ha h31 cmpultValue_eq rfl rfl
  · exact exec_both_forms ha h31 cmpuleValue_eq rfl rfl
  · exact exec_both_forms (g := andValue) ha h31 (fun _ _ => rfl) rfl rfl
  · exact exec_both_forms (g := bicValue) ha h31 (fun _ _ => rfl) rfl rfl
  · exact exec_both_forms (g := bisValue) ha h31 (fun _ _ => rfl) rfl rfl
  · exact exec_both_forms (g := ornotValue) ha h31 (fun _ _ => rfl) rfl rfl
  · exact exec_both_forms (g := xorValue) ha h31 (fun _ _ => rfl) rfl rfl
  · exact exec_both_forms (g := eqvValue) ha h31 (fun _ _ => rfl) rfl rfl

/-! ## The operations that can overflow -/

/-- The six operations in both forms, with the results O8 and O9 list for them (R542 to R547). -/
def overflowing (ra rb rc : Reg) (lit : BitVec 8) : List (IntOp × Instr × Instr × (Word → Word → Word)) :=
  [(.addw, .addw ra rb rc, .addwL ra lit rc, fun a b => ((a + b).extractLsb' 0 32).signExtend 64),
    (.subw, .subw ra rb rc, .subwL ra lit rc, fun a b => ((a - b).extractLsb' 0 32).signExtend 64),
    (.mulw, .mulw ra rb rc, .mulwL ra lit rc,
      fun a b => ((a.extractLsb' 0 32 : BitVec 32) * b.extractLsb' 0 32).signExtend 64),
    (.addl, .addl ra rb rc, .addlL ra lit rc, fun a b => a + b),
    (.subl, .subl ra rb rc, .sublL ra lit rc, fun a b => a - b),
    (.mull, .mull ra rb rc, .mullL ra lit rc, fun a b => a * b)]

section
variable {s : State} {ra rb rc : Reg} {lit : BitVec 8} {p : IntOp × Instr × Instr × (Word → Word → Word)}

/-- Each form of the six is the shared shape, with the listed result and the trap of its operation. -/
theorem exec_overflowing (hp : p ∈ overflowing ra rb rc lit) :
    exec p.2.1 s = s.execOperate rc (p.2.2.2 (s.readReg ra) (s.readReg rb))
        (s.intTrap p.1 (s.readReg ra) (s.readReg rb)) ∧
      exec p.2.2.1 s = s.execOperate rc (p.2.2.2 (s.readReg ra) (lit.setWidth 64))
        (s.intTrap p.1 (s.readReg ra) (lit.setWidth 64)) := by
  simp only [overflowing, List.mem_cons, List.not_mem_nil, or_false] at hp
  obtain rfl | rfl | rfl | rfl | rfl | rfl := hp
  case inr.inr.inl =>
    simp only [← mulwValue_eq]
    exact ⟨rfl, rfl⟩
  all_goals exact ⟨rfl, rfl⟩

/-- ARITH after an integer operation: the result stays written, EXC_SUM holds OVI, INT and the destination (R621, R622). -/
theorem raiseArith_overflow (s : State) (rc : Reg) (v : Word) :
    (s.writeReg rc v).advance.raiseArith s.pc oviBits rc =
      { s.writeReg rc v with
        pc := entryAddr s.ibox.priBase 0xB80
        ibox := { s.ibox with excPc := sext53 s.pc, excSum := (0xC0 : Word) ||| (rc.setWidth 64 <<< 8) }
        lock := { s.lock with valid := false, flag := false }
        lastExc := some .arith } := by
  rw [← State.writeReg_ibox s rc v, ← State.writeReg_lock s rc v]
  rfl

end

/-- Settles O8: no trap being due, the result is written and the pc goes on. -/
theorem arithmeticResults : Obligations.ArithmeticResults := by
  intro s ra rb rc lit ha h31 p hp
  obtain ⟨hreg, hlit⟩ := exec_overflowing (s := s) hp
  constructor <;> intro hno
  · rw [hreg, intTrap_of_noIntTrap hno, execOperate_quiet ha h31]
  · rw [hlit, intTrap_of_noIntTrap hno, execOperate_quiet ha h31]

/-- Settles O9: the trap being due, the result is written all the same, and ARITH entered. -/
theorem integerOverflowTrap : Obligations.IntegerOverflowTrap := by
  intro s ra rb rc lit ha h31 hfd p hp trapped hmem
  obtain ⟨hreg, hlit⟩ := exec_overflowing (s := s) hp
  have taken {b : Word} (hfit : ¬p.1.fits (s.readReg ra) b) :
      s.execOperate rc (p.2.2.2 (s.readReg ra) b) (s.intTrap p.1 (s.readReg ra) b) = trapped b := by
    rw [intTrap_iff.mpr ⟨hmem, hfit, hfd⟩, execOperate_run ha h31, if_pos rfl, raiseArith_overflow]
  exact ⟨fun hfit => hreg.trans (taken hfit), fun hfit => hlit.trans (taken hfit)⟩

end Sys2Proof.Machine
end

section
/-! The transfers: where they lead, what they link, and the targets that fault. -/

namespace Sys2Proof.Machine

/-! ## The transfer -/

section
variable {s u : State} {t : Word}

/-- A target that does not match is taken, and nothing is drawn (R531). -/
theorem atTarget_unmatched (h : s.idaMatch t = false) (go : State → State) : s.atTarget t go = go s := by
  have hsure : s.idaSure t := by rw [State.idaSure, State.idaOpen, h, Bool.false_and]
  rw [atTarget_sure hsure, h]
  rfl

/-- The transfer of a state that has kept the pc and the lock so far (R521, R535). -/
theorem transferTo_eq (hp : u.pc = s.pc) (hl : u.lock = s.lock) (t : Word) :
    u.transferTo t =
      { u with pc := (t &&& ~~~(3 : Word)) ||| (s.pc &&& 3), lock := { s.lock with valid := false } } := by
  rw [← hp, ← hl]
  rfl

/-- The branch not taken, from such a state (R524, R535). -/
theorem fallThrough_eq (hp : u.pc = s.pc) (hl : u.lock = s.lock) :
    u.fallThrough = { u with pc := s.pc + 4, lock := { s.lock with valid := false } } := by
  rw [← hp, ← hl]
  rfl

/-- The link, then the transfer (R521, R526). -/
theorem linkTo_eq (ra : Reg) (l t : Word) :
    (s.writeReg ra l).transferTo t =
      { s.writeReg ra l with
        pc := (t &&& ~~~(3 : Word)) ||| (s.pc &&& 3)
        lock := { s.lock with valid := false } } :=
  transferTo_eq (State.writeReg_pc s ra l) (State.writeReg_lock s ra l) t

end

/-! ## The shared shapes -/

section
variable {s : State} (ha : s.iaMatch = false)
include ha

/-- A jump to a good target is a transfer with the target match (R522, R527). -/
theorem execJump_good {ra rb : Reg} (hb : badSext (s.readReg rb) = false) :
    s.execJump ra rb = .next (s.atTarget (s.readReg rb) fun u =>
      (u.writeReg ra (nextAddr s.pc)).transferTo (s.readReg rb)) := by
  rw [State.execJump, atDecode_run (passes_int ha), hb]
  rfl

theorem execJump_bad {ra rb : Reg} (hb : badSext (s.readReg rb) = true) :
    s.execJump ra rb = .next (s.raiseBadIva (s.readReg rb)) := by
  rw [State.execJump, atDecode_run (passes_int ha), if_pos hb]

theorem execLinkBranch_run (ra : Reg) (d : BitVec 21) :
    s.execLinkBranch ra d = .next (s.atTarget (branchTarget s.pc d) fun u =>
      (u.writeReg ra (nextAddr s.pc)).transferTo (branchTarget s.pc d)) := atDecode_run (passes_int ha) _

theorem execCondBranch_taken (d : BitVec 21) :
    s.execCondBranch true d = .next (s.atTarget (branchTarget s.pc d) fun u => u.transferTo (branchTarget s.pc d)) :=
  atDecode_run (passes_int ha) _

theorem execCondBranch_untaken (d : BitVec 21) : s.execCondBranch false d = .next s.fallThrough :=
  atDecode_run (passes_int ha) _

end

theorem execFpBranch_run {s : State} (hp : s.passes .fp) (fa : Reg) (taken : Word → Bool) (d : BitVec 21) :
    s.execFpBranch fa taken d = .next
      (if taken (s.useF fa .double).1 then (s.useF fa .double).2.transferTo (branchTarget s.pc d)
        else (s.useF fa .double).2.fallThrough) := atDecode_run hp _

/-! ## Jumps and links -/

section
variable {s : State} {i : Instr} {ra rb : Reg} {hint : BitVec 16} {disp : BitVec 21}

theorem exec_jump (hi : i ∈ ([.call ra rb hint, .ret ra rb hint, .jmp ra rb hint] : List Instr)) :
    exec i s = s.execJump ra rb := by
  simp only [List.mem_cons, List.not_mem_nil, or_false] at hi
  obtain rfl | rfl | rfl := hi <;> rfl

theorem exec_linkBranch (hi : i ∈ ([.br ra disp, .bsr ra disp] : List Instr)) :
    exec i s = s.execLinkBranch ra disp := by
  simp only [List.mem_cons, List.not_mem_nil, or_false] at hi
  obtain rfl | rfl := hi <;> rfl

end

/-- Settles O11: the target passes its checks, so the link is written and the target taken. -/
theorem jumpsAndLinks : Obligations.JumpsAndLinks := by
  intro s ra rb hint disp ha
  refine ⟨fun hb hm i hi => ?jump, fun hm i hi => ?branch⟩
  case jump => rw [exec_jump hi, execJump_good ha hb, nextAddr, clearLow2, atTarget_unmatched hm, linkTo_eq]
  case branch =>
    rw [exec_linkBranch hi, execLinkBranch_run ha, branchTarget, nextAddr, clearLow2, atTarget_unmatched hm, linkTo_eq]

/-! ## When a branch is taken -/

section
variable (a : Word)

theorem beqTaken_iff : beqTaken a = true ↔ a = 0 := beq_iff_eq

theorem bneTaken_iff : bneTaken a = true ↔ a ≠ 0 := bne_iff_ne

theorem bltTaken_iff : bltTaken a = true ↔ a.toInt < 0 := BitVec.slt_iff_toInt_lt

theorem bleTaken_iff : bleTaken a = true ↔ a.toInt ≤ 0 := BitVec.sle_iff_toInt_le

theorem bgtTaken_iff : bgtTaken a = true ↔ 0 < a.toInt := by
  rw [bgtTaken, Bool.not_eq_true', ← Bool.not_eq_true, ← bleTaken, bleTaken_iff, not_le]

theorem bgeTaken_iff : bgeTaken a = true ↔ 0 ≤ a.toInt := by
  rw [bgeTaken, Bool.not_eq_true', ← Bool.not_eq_true, ← bltTaken, bltTaken_iff, not_lt]

theorem blbsTaken_iff : blbsTaken a = true ↔ a.toNat % 2 = 1 := by
  rw [blbsTaken, BitVec.getLsbD, Nat.testBit_zero, decide_eq_true_eq]

theorem blbcTaken_iff : blbcTaken a = true ↔ a.toNat % 2 = 0 := by
  rw [blbcTaken, Bool.not_eq_true', ← Bool.not_eq_true, ← blbsTaken, blbsTaken_iff, Nat.mod_two_not_eq_one]

/-- Both zeros, and nothing else, have 63 bits of zero beside the sign (R530). -/
theorem fpZero_iff : fpZero a = true ↔ a.extractLsb' 0 63 = (0 : BitVec 63) := by
  have hmask : (0x7FFFFFFFFFFFFFFF : Word).toNat = 2 ^ 63 - 1 := rfl
  rw [fpZero, beq_iff_eq, ← BitVec.toNat_inj, ← BitVec.toNat_inj, BitVec.toNat_and, hmask, Nat.and_two_pow_sub_one_eq_mod,
    BitVec.extractLsb'_toNat, Nat.shiftRight_zero]
  rfl

end

/-! ## Conditional branches -/

/-- The integer conditional branches with the conditions O12 and O14 list for them (R524, R525, R771 to R776). -/
def condBranches (s : State) (ra : Reg) (disp : BitVec 21) : List (Instr × Prop) :=
  [(.beq ra disp, s.readReg ra = 0), (.bne ra disp, s.readReg ra ≠ 0),
    (.blt ra disp, (s.readReg ra).toInt < 0), (.ble ra disp, (s.readReg ra).toInt ≤ 0),
    (.bgt ra disp, 0 < (s.readReg ra).toInt), (.bge ra disp, 0 ≤ (s.readReg ra).toInt),
    (.blbc ra disp, (s.readReg ra).toNat % 2 = 0), (.blbs ra disp, (s.readReg ra).toNat % 2 = 1)]

section
variable {s : State} {ra fa : Reg} {disp : BitVec 21} {p : Instr × Prop}

/-- Each of them is the shared shape, taken exactly where its condition holds. -/
theorem exec_condBranch (hp : p ∈ condBranches s ra disp) :
    ∃ taken : Bool, exec p.1 s = s.execCondBranch taken disp ∧ (taken = true ↔ p.2) := by
  simp only [condBranches, List.mem_cons, List.not_mem_nil, or_false] at hp
  obtain rfl | rfl | rfl | rfl | rfl | rfl | rfl | rfl := hp
  · exact ⟨_, rfl, beqTaken_iff _⟩
  · exact ⟨_, rfl, bneTaken_iff _⟩
  · exact ⟨_, rfl, bltTaken_iff _⟩
  · exact ⟨_, rfl, bleTaken_iff _⟩
  · exact ⟨_, rfl, bgtTaken_iff _⟩
  · exact ⟨_, rfl, bgeTaken_iff _⟩
  · exact ⟨_, rfl, blbcTaken_iff _⟩
  · exact ⟨_, rfl, blbsTaken_iff _⟩

theorem exec_condBranch_taken (ha : s.iaMatch = false) (hp : p ∈ condBranches s ra disp) (h : p.2) :
    exec p.1 s = .next (s.atTarget (branchTarget s.pc disp) fun u => u.transferTo (branchTarget s.pc disp)) := by
  obtain ⟨taken, hx, hiff⟩ := exec_condBranch hp
  rw [hx, hiff.mpr h, execCondBranch_taken ha]

theorem exec_condBranch_untaken (ha : s.iaMatch = false) (hp : p ∈ condBranches s ra disp) (h : ¬p.2) :
    exec p.1 s = .next s.fallThrough := by
  obtain ⟨taken, hx, hiff⟩ := exec_condBranch hp
  rw [hx, Bool.eq_false_iff.mpr (mt hiff.mp h), execCondBranch_untaken ha]

end

/-- Settles O12: the transfer where the condition holds, the next instruction where it does not. -/
theorem conditionalBranches : Obligations.ConditionalBranches := by
  intro s ra disp ha p hp
  refine ⟨fun h hm => ?goes, fun h => ?stays⟩
  case goes =>
    rw [exec_condBranch_taken ha hp h, branchTarget, nextAddr, clearLow2, atTarget_unmatched hm, transferTo_eq rfl rfl]
  case stays => rw [exec_condBranch_untaken ha hp h, fallThrough_eq rfl rfl]

/-- Settles O13: the operand may draw a value, then the branch goes by its sign and its other bits. -/
theorem floatBranches : Obligations.FloatBranches := by
  intro s fa disp hpass x z neg p hp
  have zero_iff : fpZero x.1 = true ↔ z := fpZero_iff x.1
  have shape : ∃ taken : Word → Bool, exec p.1 s = s.execFpBranch fa taken disp ∧ (taken x.1 = true ↔ p.2) := by
    simp only [List.mem_cons, List.not_mem_nil, or_false] at hp
    obtain rfl | rfl | rfl | rfl | rfl | rfl := hp
    · exact ⟨fbeqTaken, rfl, zero_iff⟩
    · exact ⟨fbneTaken, rfl, by simp [fbneTaken, ← zero_iff]⟩
    · exact ⟨fbltTaken, rfl, by simp [fbltTaken, fpSign, ← zero_iff, neg]⟩
    · exact ⟨fbleTaken, rfl, by simp [fbleTaken, fpSign, ← zero_iff, neg]⟩
    · exact ⟨fbgtTaken, rfl, by simp [fbgtTaken, fpSign, ← zero_iff, neg]⟩
    · exact ⟨fbgeTaken, rfl, by simp [fbgeTaken, fpSign, ← zero_iff, neg]⟩
  obtain ⟨hpc, hlock⟩ : x.2.pc = s.pc ∧ x.2.lock = s.lock := by
    obtain h | h := useF_state s fa .double <;> exact h ▸ ⟨rfl, rfl⟩
  obtain ⟨taken, hx, hiff⟩ := shape
  rw [hx, execFpBranch_run hpass]
  refine ⟨fun h => ?goes, fun h => ?stays⟩
  case goes => rw [if_pos (hiff.mpr h), transferTo_eq hpc hlock, branchTarget, nextAddr, clearLow2]
  case stays => rw [if_neg (mt hiff.mp h), fallThrough_eq hpc hlock]

/-! ## Targets that fault -/

/-- `t` is `s` after IACV by a target `x`, with the one cause `bit` and the register of the instruction (R590, R618, R619). -/
def State.targetFault (s t : State) (x bit : Word) : Prop :=
  s.faultsTo t 0xD00 ∧ t.dbox = s.dbox ∧ t.ebox.iva = x ∧ t.ibox.excSum = bit ||| (s.irRa.setWidth 64 <<< 8)

section
variable {s u : State} {x : Word}

theorem raiseBadIva_faults (s : State) (x : Word) : s.targetFault (s.raiseBadIva x) x 0x2000 :=
  ⟨⟨rfl, (entered_raiseBadIva s x).atEntry.mode, rfl, rfl, rfl⟩, rfl, rfl, rfl⟩

theorem raiseIdaMatch_faults (hu : u = s ∨ u = s.drawn) (x : Word) :
    s.targetFault (u.raiseIdaMatch x) x 0x400000000 := by
  have hm : (u.raiseIdaMatch x).mode = .hm := (entered_raiseIdaMatch u x).atEntry.mode
  obtain rfl | rfl := hu <;> exact ⟨⟨rfl, hm, rfl, rfl, rfl⟩, rfl, rfl, rfl⟩

/-- `t` is `s` after a transfer to `x`, with the mode, memory and the vector registers as they were (R521). -/
def State.transferredTo (s t : State) (x : Word) : Prop :=
  t.pc = (x &&& ~~~(3 : Word)) ||| (s.pc &&& 3) ∧ t.mem = s.mem ∧ t.vr = s.vr

theorem transferTo_transferred (hu : u = s ∨ u = s.drawn) (x : Word) : s.transferredTo (u.transferTo x) x := by
  obtain rfl | rfl := hu <;> exact ⟨rfl, rfl, rfl⟩

theorem linkTo_transferred (hu : u = s ∨ u = s.drawn) (ra : Reg) (l x : Word) :
    s.transferredTo ((u.writeReg ra l).transferTo x) x := by
  have h := transferTo_transferred hu x
  rwa [State.transferredTo, State.transferTo_pc, State.transferTo_mem, State.transferTo_vr, ← State.writeReg_pc u ra l,
    ← State.writeReg_mem u ra l, ← State.writeReg_vr u ra l] at h

/-- A target that matches faults; where the report is open it may be taken instead (R531, R619, R750). -/
theorem atTarget_matched {go : State → State} (hgo : ∀ u, u = s ∨ u = s.drawn → s.transferredTo (go u) x)
    (h : s.idaMatch x = true) :
    (s.idaSure x → s.targetFault (s.atTarget x go) x 0x400000000) ∧
      (s.targetFault (s.atTarget x go) x 0x400000000 ∨ s.transferredTo (s.atTarget x go) x) := by
  refine ⟨fun hsure => ?sure, ?either⟩
  case sure =>
    rw [atTarget_sure hsure, if_pos h]
    exact raiseIdaMatch_faults (.inl rfl) x
  case either =>
    obtain ⟨u, hu, hx | hx⟩ := atTarget_cases s x go <;> rw [hx]
    · exact .inl (raiseIdaMatch_faults hu x)
    · exact .inr (hgo u hu)

end

/-- Settles O14: the sign check goes before the target match, and both before the link. -/
theorem transferFaults : Obligations.TransferFaults := by
  intro s ra rb hint disp ha target bad open' matched
  have faults {i : Instr} {x : Word} {go : State → State} (hx : exec i s = .next (s.atTarget x go))
      (hgo : ∀ u, u = s ∨ u = s.drawn → s.transferredTo (go u) x) : matched (exec i s) x := by
    intro hm
    obtain ⟨hsure, heither⟩ := atTarget_matched hgo hm
    exact ⟨fun h => ⟨_, hx, hsure h⟩, heither.imp (fun h => ⟨_, hx, h⟩) fun h => ⟨_, hx, h⟩⟩
  refine ⟨fun i hi => ⟨fun hb => ?badTarget, fun hb => ?jump⟩, fun i hi => ?branch, fun p hp h => ?conditional⟩
  case badTarget => exact ⟨_, (exec_jump hi).trans (execJump_bad ha hb), raiseBadIva_faults s _⟩
  case jump => exact faults ((exec_jump hi).trans (execJump_good ha hb)) fun u hu => linkTo_transferred hu _ _ _
  case branch =>
    exact faults ((exec_linkBranch hi).trans (execLinkBranch_run ha ra disp)) fun u hu => linkTo_transferred hu _ _ _
  case conditional => exact faults (exec_condBranch_taken ha hp h) fun u hu => transferTo_transferred hu _

end Sys2Proof.Machine
end

section
/-! The SIMD moves, and the entries of the exceptions. -/

namespace Sys2Proof.Machine

/-! ## Elements -/

/-- Of the elements of `n` bits in a vector, one cleared by a mask and replaced by `d`, the others kept. -/
theorem extractLsb'_replaced (v : Vec) {n i : Nat} (d : BitVec n) (h : n * i + n ≤ 256) (k : Nat) :
    ((v &&& ~~~(((BitVec.allOnes n).setWidth 256 : Vec) <<< (n * i))) ||| ((d.setWidth 256 : Vec) <<< (n * i))).extractLsb'
      (n * k) n = if k = i then d else v.extractLsb' (n * k) n := by
  refine BitVec.eq_of_getLsbD_eq fun j hj => ?_
  simp only [BitVec.getLsbD_extractLsb', BitVec.getLsbD_or, BitVec.getLsbD_and, BitVec.getLsbD_not, BitVec.getLsbD_shiftLeft,
    BitVec.getLsbD_setWidth, BitVec.getLsbD_allOnes, hj, decide_true, Bool.true_and]
  obtain hki | rfl | hik := Nat.lt_trichotomy k i
  · have hle : n * k + n ≤ n * i := Nat.mul_le_mul_left n hki
    have hbit : n * k + j < n * i := by omega
    have hin : n * k + j < 256 := by omega
    simp [hki.ne, hj, hbit, hin]
  · have hin : n * k + j < 256 := by omega
    simp [hj, hin, show j < 256 by omega]
  · have hle : n * i + n ≤ n * k := Nat.mul_le_mul_left n hik
    have hbit : ¬n * k + j - n * i < n := by omega
    simpa [hik.ne', hj, hbit, d.getLsbD_of_ge _ (not_lt.mp hbit)] using BitVec.lt_of_getLsbD

section
variable (v : Vec) {i : Nat}

theorem elem_setElem64 (d : Word) (h : i < 4) (k : Nat) : elem (setElem64 v i d) k = if k = i then d else elem v k :=
  extractLsb'_replaced v d (by omega) k

theorem elem32_setElem32 (d : BitVec 32) (h : i < 8) (k : Nat) :
    elem32 (setElem32 v i d) k = if k = i then d else elem32 v k := extractLsb'_replaced v d (by omega) k

theorem elem_splat64 (d : Word) {k : Nat} (h : k < 4) : elem (splat64 d) k = d := elem_vec4 (fun _ => d) h

end

/-- Data of one kind stay of that kind together. -/
theorem join_self (k : DataKind) : k.join k = k := if_pos rfl

/-! ## The moves -/

/-- An instruction of the SIMD unit that is not null runs once its unit is enabled (R570). -/
theorem simd_run {s : State} {fc : Reg} (hp : s.passes .simd) (h31 : fc ≠ 31) (run : Result) :
    (if fc = 31 then s.execNull else s.atDecode none .simd run) = run := (if_neg h31).trans (atDecode_run hp run)

/-- What VEXTW writes, and of which kind, is one of the two the spec leaves open (R576). -/
theorem vextwValue_cases (w : BitVec 32) (c : Bool) :
    (vextwValue w c = fldsConvert w ∧ (if c then DataKind.single else .integer) = .single) ∨
      (vextwValue w c = w.setWidth 64 ∧ (if c then DataKind.single else .integer) = .integer) := by
  cases c
  · exact .inr ⟨rfl, rfl⟩
  · exact .inl ⟨rfl, rfl⟩

/-- Settles O31: each move completes, and the elements are those of the vector it writes. -/
theorem simdMoves : Obligations.SimdMoves := by
  intro s fa fb fc x2 x3 hp h31 a b
  refine ⟨⟨_, _, simd_run hp h31 _, fun hk => ?kind, fun k _ => elem_setElem64 _ _ x2.isLt k⟩,
    ⟨_, simd_run hp h31 _, fun k _ => elem32_setElem32 _ _ x3.isLt k⟩,
    ⟨_, simd_run hp h31 _, fun k hk => elem_splat64 _ hk⟩, simd_run hp h31 _,
    ⟨_, _, simd_run hp h31 _, vextwValue_cases _ _⟩⟩
  case kind => rw [← hk, join_self]

/-! ## Entries -/

/-- The offsets of the entry table (R591). -/
theorem offset_listed : ∀ p ∈ ([(Exc.dtbmDouble, 0x800), (.dtbmSingle0, 0x880), (.dtbmSingle1, 0x900), (.itbMiss0, 0x980),
    (.itbMiss1, 0xA00), (.fen, 0xA80), (.unalign, 0xB00), (.arith, 0xB80), (.dfault, 0xC80), (.iacv, 0xD00),
    (.opcdec, 0xD80), (.interrupt0, 0xE00), (.interrupt1, 0xE80), (.sleep, 0xF00), (.mchk, 0xF80)] : List (Exc × Nat)),
    p.1.offset.toNat = p.2 := by decide

/-- Where execution starts after a reset is an entry. -/
theorem atResetEntry_atEntry (s : State) : s.atResetEntry.atEntry :=
  ⟨0x1000, by unfold EntryOffset; decide, rfl⟩

/-- Settles O48: the address is PRI_BASE's part and the offset, and every entry is in HM. -/
theorem entryAddresses : Obligations.EntryAddresses := by
  refine fun s recordPc => ⟨fun p hp => ⟨?address, ?mode⟩, toNat_entryAddr _ 0x1000, (atResetEntry_atEntry s).mode⟩
  case address => rw [State.enter_pc, toNat_entryAddr, offset_listed p hp]
  case mode => exact (entered_enter (s := s) p.1 recordPc rfl rfl).atEntry.mode

end Sys2Proof.Machine
end
